-- ==== Sys2Proof/Word.lean ====
section
/-! DEFINITION. The words of the block: the widths of 00_scope.md R6 to R8 and nothing else. -/

namespace Sys2Proof

/-- A byte of a frame, a datagram, a chunk or the Sink (00_scope.md section 6). -/
abbrev Byte := BitVec 8

/-- A sequence number: 3 bits, all arithmetic modulo 8 (R3, R6, R12). -/
abbrev Seq := BitVec 3

/-- A payload length field: 5 bits, of which the values 0 to 30 are legal (R6, R94). -/
abbrev Len := BitVec 5

/-- `sentCount`, `ackedCount` and `inFlight[].off`: CNT_W = 32 bits (R8). -/
abbrev Count := BitVec 32

/-- The `cause` output: 4 bits (R35). -/
abbrev CauseCode := BitVec 4

/-- A whole datagram of the Channel: a byte buffer of any length (R70, R121). -/
abbrev Datagram := List Byte

/-- `zeros(n)`: n bytes of value 0x00 (00_scope.md section 6). -/
abbrev zeros (n : Nat) : List Byte := List.replicate n 0#8

end Sys2Proof
end

