-- ==== Sys2Proof/Config.lean ====
section
/-! DEFINITION. What an instance of the block fixes: the parameters R3 to R9. RESYNC_ADJ (R10) is the table
`State.adj` of the instance, read through `Sys2Proof.Machine.resyncAdj` in Machine/Operands.lean. -/

namespace Sys2Proof.Config

/-- MAX_SEQ = 8, the size of the sequence space (R3). -/
abbrev maxSeq : Nat := 8

/-- WINDOW_SIZE = 7, the most frames unacknowledged at once (R4). -/
abbrev windowSize : Nat := 7

/-- CHUNK_BYTES = 30, the payload capacity of a frame (R5). -/
abbrev chunkBytes : Nat := 30

/-- KIND_BYTES + SEQ_BYTES + LEN_BYTES (R7). -/
abbrev headerBytes : Nat := 3

/-- FRAME_BYTES = 33 (R7, R90). -/
abbrev frameBytes : Nat := 33

/-- The largest value of a 32-bit counter, 2^32 - 1 (R8, R144, R247). -/
abbrev maxCount : Count := 4294967295#32

/-- T_WAIT less one. The spec leaves T_WAIT open and says it is positive (R9, D26). No rule reads it and no definition
of the model does either; it has no body, so nothing can be proved of its value. Log 8. -/
opaque tWaitLessOne : Nat

/-- T_WAIT, the bounded wait of one receive call: a positive duration (R9). Log 8. -/
abbrev tWait : Nat := tWaitLessOne + 1

/-- Where a Source's cursor stands after it has answered chunk c with these bytes, when they are none or more than 30. R67(c) and
(d) name SND's fault and say nothing of the cursor. A free value: it has no body, so nothing can be proved of it. Log 17. -/
opaque brokenChunkCursor : Nat → List Byte → Nat

end Sys2Proof.Config
end

