-- ==== Sys2Proof/Syntax.lean ====
section
/-! DEFINITION. The abstract syntax: frames, the Channel's answers, and one constructor of `Instr` per row of
spec/opcode_table.json (00_scope.md section 4: an instruction is one operation). -/

namespace Sys2Proof

/-- The kind of a frame (R92). -/
inductive Kind where
  | ack
  | data
  | eotAck
  | eot
deriving DecidableEq, Repr

/-- The abstract frame of 40_codec.md: `payload` is the whole 30-byte slot, padding included. -/
structure Frame where
  kind : Kind
  seq : Seq
  len : Len
  payload : List Byte
deriving DecidableEq, Repr

/-- The fields of a received frame other than its kind: the operands of a row that a frame selects. -/
structure Body where
  seq : Seq
  len : Len
  payload : List Byte
deriving DecidableEq, Repr

/-- The role of an instance (R2, R11). It also names the engine of that instance. -/
inductive Role where
  | sender
  | receiver
deriving DecidableEq, Repr

/-- The answer of one `ChRecv()` (R70). -/
inductive Answer where
  | buffer (b : Datagram)
  | timeout
  | error
deriving DecidableEq, Repr

/-- The four branches of ACK(n), tried in this order (R172, R173). -/
inductive AckBranch where
  | discard
  | cum
  | late
  | resync
deriving DecidableEq, Repr

/-- Who reads a word. A wire frame is the word of several rows of the table, and what it does depends on the engine that
receives it and on that engine's phase (R98). `codec` is the CODEC itself, with no engine: it reads the constructor rows and
the LOCAL rows. `sndAck` is ACK after its test has chosen a branch (R173). -/
inductive Reader where
  | codec
  | sndWait
  | sndAck (branch : AckBranch)
  | sndEotWait
  | rcvWait (expected : Seq)
deriving DecidableEq, Repr

/-- One constructor per row of spec/opcode_table.json; LAWS.json maps each to its mnemonic. A row that a received frame
selects carries that frame's fields. A LOCAL row carries the operands its rule names; ENCODE, DECODE and RESET also name the
instance they act on. -/
inductive Instr where
  -- the frame constructors (R123, R124)
  | ack (n : Seq)
  | data (n : Seq) (len : Len) (d : List Byte)
  | eotAck (n : Seq)
  | eot (n : Seq)
  -- SND in WAIT (R172 to R178)
  | ackRx (f : Body)
  | ackDiscard (f : Body)
  | ackCum (f : Body)
  | ackLate (f : Body)
  | ackResync (f : Body)
  | sndIgnoreData (f : Body)
  | sndIgnoreEotAck (f : Body)
  | sndIgnoreEot (f : Body)
  -- SND in EOTWAIT (R202, R203)
  | eotAcked (f : Body)
  | eotOtherAck (f : Body)
  | eotOtherData (f : Body)
  | eotOtherEot (f : Body)
  -- RCV in WAIT (R222 to R225)
  | rcvData (f : Body)
  | rcvEot (f : Body)
  | rcvOoo (k : Kind) (f : Body)
  | rcvIgnoreAck (f : Body)
  | rcvIgnoreEotAck (f : Body)
  -- the LOCAL rows (R99)
  | encode (e : Role) (f : Frame)
  | decode (e : Role) (b : Datagram)
  | sndStart
  | sndCycle
  | fill
  | txNew
  | resend
  | txOld (i : BitVec 3)
  | sndEvent (a : Answer)
  | timeout
  | resync (n : Seq)
  | eotSend
  | eotEvent (a : Answer)
  | eotTimeout
  | rcvStart
  | rcvEvent (a : Answer)
  | rcvTimeout
  | reset (e : Role)
deriving DecidableEq, Repr

end Sys2Proof
end

