-- ==== Sys2Proof/WellFormed.lean ====
section
/-! DEFINITION. Well-formed operands: the ranges the rules name (R90 to R97, R120, R123, R146) and the widths of the model's
own operand layout (log 10). -/

namespace Sys2Proof

/-- A valid frame: length 0 to 30 and a slot of exactly 30 bytes; kind and seqNum are in range by their types (40_codec.md). -/
def frameWf (f : Frame) : Bool :=
  decide (f.len.toNat ≤ 30) && decide (f.payload.length = 30)

/-- The same check on the fields of a received frame. -/
def bodyWf (f : Body) : Bool :=
  decide (f.len.toNat ≤ 30) && decide (f.payload.length = 30)

/-- A datagram operand of a LOCAL row has a 16-bit length in the model's operand layout (log 10). -/
def datagramWf (b : Datagram) : Bool :=
  decide (b.length < 65536)

/-- An answer operand: only a buffer has a check. -/
def answerWf : Answer → Bool
  | .buffer b => datagramWf b
  | .timeout => true
  | .error => true

/-- The operands of an instruction are in the ranges of its rule. -/
def instrWf : Instr → Bool
  | .ack _ => true
  | .data _ len d => decide (len.toNat ≤ 30) && decide (d.length = len.toNat)
  | .eotAck _ => true
  | .eot _ => true
  | .ackRx f => bodyWf f
  | .ackDiscard f => bodyWf f
  | .ackCum f => bodyWf f
  | .ackLate f => bodyWf f
  | .ackResync f => bodyWf f
  | .sndIgnoreData f => bodyWf f
  | .sndIgnoreEotAck f => bodyWf f
  | .sndIgnoreEot f => bodyWf f
  | .eotAcked f => bodyWf f
  | .eotOtherAck f => bodyWf f
  | .eotOtherData f => bodyWf f
  | .eotOtherEot f => bodyWf f
  | .rcvData f => bodyWf f
  | .rcvEot f => bodyWf f
  | .rcvOoo _ f => bodyWf f
  | .rcvIgnoreAck f => bodyWf f
  | .rcvIgnoreEotAck f => bodyWf f
  | .encode _ f => frameWf f
  | .decode _ b => datagramWf b
  | .sndStart => true
  | .sndCycle => true
  | .fill => true
  | .txNew => true
  | .resend => true
  | .txOld i => decide (i.toNat < 7)
  | .sndEvent a => answerWf a
  | .timeout => true
  | .resync _ => true
  | .eotSend => true
  | .eotEvent a => answerWf a
  | .eotTimeout => true
  | .rcvStart => true
  | .rcvEvent a => answerWf a
  | .rcvTimeout => true
  | .reset _ => true

end Sys2Proof
end

