-- ==== Sys2Proof/Decode.lean ====
section
/-! DEFINITION. Reading and writing words. `decodeFrame` and `encodeFrame` are DECODE and ENCODE on buffers (R120, R121);
`decodeIn` reads any row of the table for a reader (R98), total on any bytes and rejecting by name; `encode` writes a
well-formed instruction. The layout of the operands of a LOCAL row is the model's own (log 10). -/

namespace Sys2Proof

/-- Why DECODE faults on a buffer (R121). -/
inductive FrameError where
  /-- fewer than 33 bytes: MALFORMED_SHORT (R241) -/
  | short
  /-- byte 0 above 3: MALFORMED_FIELD (R242) -/
  | kind
  /-- byte 1 above 7: MALFORMED_FIELD (R242) -/
  | seq
  /-- byte 2 above 30: MALFORMED_FIELD (R242) -/
  | len
deriving DecidableEq, Repr

/-- Why a word is no row's word for its reader. -/
inductive DecodeError where
  /-- not a legal frame -/
  | frame (e : FrameError)
  /-- no bytes at all -/
  | empty
  /-- the first byte is neither a frame kind nor an index of R99 -/
  | noSuchOp
  /-- an operand of a LOCAL row outside its range -/
  | badOperand
  /-- a legal frame that selects no row for this reader (the branch of ACK reads only Ack frames) -/
  | wrongReader
deriving DecidableEq, Repr

/-! ### Frames -/

/-- The kind codes of R92. -/
def kindCode : Kind → Byte
  | .ack => 0#8
  | .data => 1#8
  | .eotAck => 2#8
  | .eot => 3#8

/-- The kind of a legal byte 0 (R92); only called on a byte at most 3. -/
def kindOfByte (b : Byte) : Kind :=
  if b = 0#8 then .ack else if b = 1#8 then .data else if b = 2#8 then .eotAck else .eot

/-- The 33 bytes of a frame in offset order (R61, R91, R120). -/
def encodeFrame (f : Frame) : Datagram :=
  kindCode f.kind :: f.seq.setWidth 8 :: f.len.setWidth 8 :: f.payload

/-- DECODE on a buffer of any length: the tests in the order of R121, bytes past offset 32 ignored (R63), padding not
examined (R95). -/
def decodeFrame (b : Datagram) : Except FrameError Frame :=
  if b.length < Config.frameBytes then .error .short
  else if 3 < (b.getD 0 0#8).toNat then .error .kind
  else if 7 < (b.getD 1 0#8).toNat then .error .seq
  else if 30 < (b.getD 2 0#8).toNat then .error .len
  else .ok
    { kind := kindOfByte (b.getD 0 0#8)
      seq := (b.getD 1 0#8).setWidth 3
      len := (b.getD 2 0#8).setWidth 5
      payload := (b.drop Config.headerBytes).take Config.chunkBytes }

/-- `Data(s, len, d)`: zero-padded to the slot (R95, R123). -/
def frameData (n : Seq) (len : Len) (d : List Byte) : Frame :=
  { kind := .data, seq := n, len := len, payload := d ++ zeros (Config.chunkBytes - d.length) }

/-- `Ack(s)`: length 0, 30 zero bytes (R96, R124). -/
def frameAck (n : Seq) : Frame :=
  { kind := .ack, seq := n, len := 0#5, payload := zeros Config.chunkBytes }

/-- `EotAck(s)` (R96, R124). -/
def frameEotAck (n : Seq) : Frame :=
  { kind := .eotAck, seq := n, len := 0#5, payload := zeros Config.chunkBytes }

/-- `Eot(s)` (R96, R124). -/
def frameEot (n : Seq) : Frame :=
  { kind := .eot, seq := n, len := 0#5, payload := zeros Config.chunkBytes }

/-- The frame of kind `k` with the fields of `f`. -/
def bodyFrame (k : Kind) (f : Body) : Frame :=
  { kind := k, seq := f.seq, len := f.len, payload := f.payload }

/-- The fields of a frame other than its kind. -/
def frameBody (f : Frame) : Body :=
  { seq := f.seq, len := f.len, payload := f.payload }

/-! ### The rows a frame selects (R98) -/

/-- The constructor row of a frame: a control frame's length and payload and a data frame's padding are tolerated and
dropped, as no rule reads them (R95, R96, R97). -/
def constructorOf (f : Frame) : Instr :=
  match f.kind with
  | .ack => .ack f.seq
  | .data => .data f.seq f.len (f.payload.take f.len.toNat)
  | .eotAck => .eotAck f.seq
  | .eot => .eot f.seq

/-- SND in WAIT (R98, column 1): an Ack goes to ACK, every other kind to SND.IGNORE. -/
def sndWaitRow (f : Frame) : Instr :=
  match f.kind with
  | .ack => .ackRx (frameBody f)
  | .data => .sndIgnoreData (frameBody f)
  | .eotAck => .sndIgnoreEotAck (frameBody f)
  | .eot => .sndIgnoreEot (frameBody f)

/-- The row of the branch ACK has chosen (R173). -/
def ackBranchRow (br : AckBranch) (f : Frame) : Instr :=
  match br with
  | .discard => .ackDiscard (frameBody f)
  | .cum => .ackCum (frameBody f)
  | .late => .ackLate (frameBody f)
  | .resync => .ackResync (frameBody f)

/-- SND in EOTWAIT (R98, column 2): an EotAck terminates, every other kind is EOT.OTHER. -/
def eotWaitRow (f : Frame) : Instr :=
  match f.kind with
  | .ack => .eotOtherAck (frameBody f)
  | .data => .eotOtherData (frameBody f)
  | .eotAck => .eotAcked (frameBody f)
  | .eot => .eotOtherEot (frameBody f)

/-- RCV in WAIT (R98, column 3): the sequence number is tested before the kind (R221). -/
def rcvWaitRow (expected : Seq) (f : Frame) : Instr :=
  if f.seq = expected then
    match f.kind with
    | .ack => .rcvIgnoreAck (frameBody f)
    | .data => .rcvData (frameBody f)
    | .eotAck => .rcvIgnoreEotAck (frameBody f)
    | .eot => .rcvEot (frameBody f)
  else .rcvOoo f.kind (frameBody f)

/-! ### The LOCAL rows (R99): the index, then the operands in the model's own layout (log 10) -/

/-- A role operand: 0 SENDER, 1 RECEIVER. -/
def roleCode : Role → Byte
  | .sender => 0#8
  | .receiver => 1#8

/-- Reads a role operand. -/
def roleOfByte (b : Byte) : Except DecodeError Role :=
  if b = 0#8 then .ok .sender else if b = 1#8 then .ok .receiver else .error .badOperand

/-- A datagram operand: its length in two bytes, the low one first, then its bytes. -/
def encodeDatagram (b : Datagram) : List Byte :=
  BitVec.ofNat 8 b.length :: BitVec.ofNat 8 (b.length / 256) :: b

/-- Reads a datagram operand; bytes after it are ignored. -/
def decodeDatagram (l : List Byte) : Except DecodeError Datagram :=
  match l with
  | lo :: hi :: rest =>
    if rest.length < lo.toNat + 256 * hi.toNat then .error .badOperand
    else .ok (rest.take (lo.toNat + 256 * hi.toNat))
  | _ => .error .badOperand

/-- An answer operand: 0 Timeout, 1 Error, 2 Buffer and its datagram. -/
def encodeAnswer : Answer → List Byte
  | .timeout => [0#8]
  | .error => [1#8]
  | .buffer b => 2#8 :: encodeDatagram b

/-- Reads an answer operand. -/
def decodeAnswer (l : List Byte) : Except DecodeError Answer :=
  match l with
  | t :: rest =>
    if t = 0#8 then .ok .timeout
    else if t = 1#8 then .ok .error
    else if t = 2#8 then
      match decodeDatagram rest with
      | .ok b => .ok (.buffer b)
      | .error e => .error e
    else .error .badOperand
  | [] => .error .badOperand

/-- Reads an index of `inFlight`, 0 to 6 (R26, R146). -/
def decodeIndex (l : List Byte) : Except DecodeError (BitVec 3) :=
  match l with
  | b :: _ => if 6 < b.toNat then .error .badOperand else .ok (b.setWidth 3)
  | [] => .error .badOperand

/-- Reads a sequence number, 0 to 7 (R93). -/
def decodeSeq (l : List Byte) : Except DecodeError Seq :=
  match l with
  | b :: _ => if 7 < b.toNat then .error .badOperand else .ok (b.setWidth 3)
  | [] => .error .badOperand

/-- ENCODE's operands: the instance, then the frame as its 33-byte image. -/
def decodeEncode (l : List Byte) : Except DecodeError Instr :=
  match l with
  | r :: rest =>
    match roleOfByte r, decodeFrame rest with
    | .ok e, .ok f => .ok (.encode e f)
    | .ok _, .error err => .error (.frame err)
    | .error err, _ => .error err
  | [] => .error .badOperand

/-- DECODE's operands: the instance, then the datagram. -/
def decodeDecode (l : List Byte) : Except DecodeError Instr :=
  match l with
  | r :: rest =>
    match roleOfByte r, decodeDatagram rest with
    | .ok e, .ok b => .ok (.decode e b)
    | .ok _, .error err => .error err
    | .error err, _ => .error err
  | [] => .error .badOperand

/-- RESET's operand: the instance. -/
def decodeReset (l : List Byte) : Except DecodeError Instr :=
  match l with
  | r :: _ =>
    match roleOfByte r with
    | .ok e => .ok (.reset e)
    | .error err => .error err
  | [] => .error .badOperand

/-- Applies a constructor to a read operand. -/
def withOperand {α : Type} (r : Except DecodeError α) (mk : α → Instr) : Except DecodeError Instr :=
  match r with
  | .ok a => .ok (mk a)
  | .error e => .error e

/-- The LOCAL rows by their index (R99). -/
def decodeLocal (op : Byte) (rest : List Byte) : Except DecodeError Instr :=
  if op = 0x10#8 then decodeEncode rest
  else if op = 0x11#8 then decodeDecode rest
  else if op = 0x20#8 then .ok .sndStart
  else if op = 0x21#8 then .ok .sndCycle
  else if op = 0x22#8 then .ok .fill
  else if op = 0x23#8 then .ok .txNew
  else if op = 0x24#8 then .ok .resend
  else if op = 0x25#8 then withOperand (decodeIndex rest) Instr.txOld
  else if op = 0x26#8 then withOperand (decodeAnswer rest) Instr.sndEvent
  else if op = 0x27#8 then .ok .timeout
  else if op = 0x28#8 then withOperand (decodeSeq rest) Instr.resync
  else if op = 0x29#8 then .ok .eotSend
  else if op = 0x2A#8 then withOperand (decodeAnswer rest) Instr.eotEvent
  else if op = 0x2B#8 then .ok .eotTimeout
  else if op = 0x30#8 then .ok .rcvStart
  else if op = 0x31#8 then withOperand (decodeAnswer rest) Instr.rcvEvent
  else if op = 0x32#8 then .ok .rcvTimeout
  else if op = 0x3F#8 then decodeReset rest
  else .error .noSuchOp

/-! ### The decoder and the encoder -/

/-- The CODEC's reading: a first byte of 0 to 3 is a frame, read as its constructor row; any other is an index of R99. -/
def decode (b : List Byte) : Except DecodeError Instr :=
  match b with
  | [] => .error .empty
  | op :: rest =>
    if op.toNat ≤ 3 then
      match decodeFrame b with
      | .ok f => .ok (constructorOf f)
      | .error e => .error (.frame e)
    else decodeLocal op rest

/-- Reads a frame with a row chooser. -/
def decodeFrameAs (b : List Byte) (row : Frame → Instr) : Except DecodeError Instr :=
  match decodeFrame b with
  | .ok f => .ok (row f)
  | .error e => .error (.frame e)

/-- The decoder for every reader (R98): total, and it rejects by name. -/
def decodeIn (r : Reader) (b : List Byte) : Except DecodeError Instr :=
  match r with
  | .codec => decode b
  | .sndWait => decodeFrameAs b sndWaitRow
  | .sndAck br =>
    match decodeFrame b with
    | .ok f => if f.kind = .ack then .ok (ackBranchRow br f) else .error .wrongReader
    | .error e => .error (.frame e)
  | .sndEotWait => decodeFrameAs b eotWaitRow
  | .rcvWait expected => decodeFrameAs b (rcvWaitRow expected)

/-- The words of an instruction, from the same tables. -/
def encode : Instr → List Byte
  | .ack n => encodeFrame (frameAck n)
  | .data n len d => encodeFrame (frameData n len d)
  | .eotAck n => encodeFrame (frameEotAck n)
  | .eot n => encodeFrame (frameEot n)
  | .ackRx f => encodeFrame (bodyFrame .ack f)
  | .ackDiscard f => encodeFrame (bodyFrame .ack f)
  | .ackCum f => encodeFrame (bodyFrame .ack f)
  | .ackLate f => encodeFrame (bodyFrame .ack f)
  | .ackResync f => encodeFrame (bodyFrame .ack f)
  | .sndIgnoreData f => encodeFrame (bodyFrame .data f)
  | .sndIgnoreEotAck f => encodeFrame (bodyFrame .eotAck f)
  | .sndIgnoreEot f => encodeFrame (bodyFrame .eot f)
  | .eotAcked f => encodeFrame (bodyFrame .eotAck f)
  | .eotOtherAck f => encodeFrame (bodyFrame .ack f)
  | .eotOtherData f => encodeFrame (bodyFrame .data f)
  | .eotOtherEot f => encodeFrame (bodyFrame .eot f)
  | .rcvData f => encodeFrame (bodyFrame .data f)
  | .rcvEot f => encodeFrame (bodyFrame .eot f)
  | .rcvOoo k f => encodeFrame (bodyFrame k f)
  | .rcvIgnoreAck f => encodeFrame (bodyFrame .ack f)
  | .rcvIgnoreEotAck f => encodeFrame (bodyFrame .eotAck f)
  | .encode e f => 0x10#8 :: roleCode e :: encodeFrame f
  | .decode e b => 0x11#8 :: roleCode e :: encodeDatagram b
  | .sndStart => [0x20#8]
  | .sndCycle => [0x21#8]
  | .fill => [0x22#8]
  | .txNew => [0x23#8]
  | .resend => [0x24#8]
  | .txOld i => [0x25#8, i.setWidth 8]
  | .sndEvent a => 0x26#8 :: encodeAnswer a
  | .timeout => [0x27#8]
  | .resync n => [0x28#8, n.setWidth 8]
  | .eotSend => [0x29#8]
  | .eotEvent a => 0x2A#8 :: encodeAnswer a
  | .eotTimeout => [0x2B#8]
  | .rcvStart => [0x30#8]
  | .rcvEvent a => 0x31#8 :: encodeAnswer a
  | .rcvTimeout => [0x32#8]
  | .reset e => [0x3F#8, roleCode e]

/-- The readers for whom an instruction's words mean it (R98): a constructor or LOCAL row is read by the CODEC, RCV.OOO by an
RCV that expects another number, an in-order RCV row by one that expects this number. -/
def readBy (i : Instr) (r : Reader) : Bool :=
  match i with
  | .ackRx _ => decide (r = .sndWait)
  | .ackDiscard _ => decide (r = .sndAck .discard)
  | .ackCum _ => decide (r = .sndAck .cum)
  | .ackLate _ => decide (r = .sndAck .late)
  | .ackResync _ => decide (r = .sndAck .resync)
  | .sndIgnoreData _ => decide (r = .sndWait)
  | .sndIgnoreEotAck _ => decide (r = .sndWait)
  | .sndIgnoreEot _ => decide (r = .sndWait)
  | .eotAcked _ => decide (r = .sndEotWait)
  | .eotOtherAck _ => decide (r = .sndEotWait)
  | .eotOtherData _ => decide (r = .sndEotWait)
  | .eotOtherEot _ => decide (r = .sndEotWait)
  | .rcvData f => decide (r = .rcvWait f.seq)
  | .rcvEot f => decide (r = .rcvWait f.seq)
  | .rcvIgnoreAck f => decide (r = .rcvWait f.seq)
  | .rcvIgnoreEotAck f => decide (r = .rcvWait f.seq)
  | .rcvOoo _ f => match r with
    | .rcvWait e => decide (e ≠ f.seq)
    | .codec => false
    | .sndWait => false
    | .sndAck _ => false
    | .sndEotWait => false
  | .ack _ => decide (r = .codec)
  | .data _ _ _ => decide (r = .codec)
  | .eotAck _ => decide (r = .codec)
  | .eot _ => decide (r = .codec)
  | .encode _ _ => decide (r = .codec)
  | .decode _ _ => decide (r = .codec)
  | .sndStart => decide (r = .codec)
  | .sndCycle => decide (r = .codec)
  | .fill => decide (r = .codec)
  | .txNew => decide (r = .codec)
  | .resend => decide (r = .codec)
  | .txOld _ => decide (r = .codec)
  | .sndEvent _ => decide (r = .codec)
  | .timeout => decide (r = .codec)
  | .resync _ => decide (r = .codec)
  | .eotSend => decide (r = .codec)
  | .eotEvent _ => decide (r = .codec)
  | .eotTimeout => decide (r = .codec)
  | .rcvStart => decide (r = .codec)
  | .rcvEvent _ => decide (r = .codec)
  | .rcvTimeout => decide (r = .codec)
  | .reset _ => decide (r = .codec)

/-! ### Words of the opcode table -/

/-- The bytes of a table word. The table numbers a LOCAL row's 8 bits as its index, and a frame row's 24 header bits with
byte 0 in bits 23 to 16, byte 1 in bits 15 to 8 and byte 2 in bits 7 to 0 (the rows' "note"); where more bits are given,
payload byte i stands in bits 24 + 8i upward (log 11). Every byte the word does not reach is 0, up to the longest
instruction whose operands are zeros. -/
def tableBytes (nbits w : Nat) : List Byte :=
  if nbits = 8 then BitVec.ofNat 8 w :: zeros 40
  else if nbits < 24 then []
  else
    BitVec.ofNat 8 (w >>> 16) :: BitVec.ofNat 8 (w >>> 8) :: BitVec.ofNat 8 w ::
      ((List.range 30).map (fun i => BitVec.ofNat 8 ((w % 2 ^ nbits) >>> (24 + 8 * i))))

/-- The instruction the decoder reads from a word of spec/opcode_table.json (log 11). -/
def decodeTableWord (nbits w : Nat) : Option Instr :=
  match decode (tableBytes nbits w) with
  | .ok i => some i
  | .error _ => none

end Sys2Proof
end

