-- ==== Sys2Proof/Machine/State.lean ====
section
/-! DEFINITION. The state of a link (10_state.md; log 1): one SENDER instance, one RECEIVER instance, the Channel between
them, the Source, the Sink, the event logs, and the moves of the outside world still to come. Plain data throughout. -/

namespace Sys2Proof.Machine

/-- One entry of `inFlight` (R26): the number the frame was sent with and the index of its chunk. -/
structure Entry where
  seq : Seq
  off : Count
deriving DecidableEq, Repr

/-- The phase register of SND, its program counter (R34). Values 6 and 7 are never written and are not represented (RV7). -/
inductive SndPhase where
  | idle
  | cycle
  | wait
  | eotWait
  | done
  | fault
deriving DecidableEq, Repr

/-- The phase register of RCV (R37). -/
inductive RcvPhase where
  | idle
  | wait
  | done
  | fault
deriving DecidableEq, Repr

/-- The eight fatal conditions of the block (R240). Taking one is `takeFault`, a next state (R252). -/
inductive FaultCode where
  | malformedShort
  | malformedField
  | sourceZero
  | channelSend
  | channelRecv
  | resyncUnderflow
  | counterOverflow
  | sourceProto
deriving DecidableEq, Repr

/-- The events an engine records (R258). -/
inductive Event where
  | ackRx (n : Seq)
  | eotAckRx (n : Seq)
  | dataRx (n : Seq)
  | eotRx (n : Seq)
deriving DecidableEq, Repr

/-- The Channel's answer to one `ChSend` (R69, R71): ok and taken into the bag, ok and lost, or Error. -/
inductive SendAnswer where
  | taken
  | lost
  /-- Error; the datagram stands in the bag all the same where `kept` says so (the model leaves both open, log 5) -/
  | error (kept : Bool)
deriving DecidableEq, Repr

/-- How the Channel answers a pending `ChRecv` (R70, R71): with the datagram at a place of the bag, with Timeout whatever the
bag holds, or with an error. -/
inductive RecvChoice where
  | deliver (i : Nat)
  | timeout
  | error
deriving DecidableEq, Repr

/-- One move of the outside world or of the scheduler (R13, R71, R259; log 7). -/
inductive Move where
  /-- the operation port: these bytes, read by this reader, are the next operation (log 12) -/
  | op (r : Reader) (bytes : List Byte)
  /-- the host's two inputs to an instance in one step; a start that coincides with rst is ignored (R251, R259) -/
  | host (e : Role) (rst start : Bool)
  /-- SND takes the step its phase selects without an answer: SND.CYCLE in CYCLE (R34) -/
  | run
  /-- the Channel answers the pending `ChRecv` of this instance (R70) -/
  | answer (e : Role) (c : RecvChoice)
  /-- the Channel loses the datagram at this place of the bag towards this instance (R71) -/
  | drop (e : Role) (i : Nat)
  /-- the Channel duplicates the datagram at this place of the bag towards this instance (R71) -/
  | dup (e : Role) (i : Nat)
  /-- the Channel's answers to the next sends of this instance (log 5) -/
  | plan (e : Role) (answers : List SendAnswer)
  /-- the host will assert rst when this instance has made this many more external calls (R280; log 6) -/
  | armRst (e : Role) (calls : Nat)
  /-- the platform puts a Source in place, its cursor at chunk 0 (R282(d)) -/
  | load (chunks : List (List Byte)) (flagsLast : Bool)
  /-- the platform puts an empty Sink in place, before RCV's start (R282(e); log 16) -/
  | newSink
deriving DecidableEq, Repr

/-- The registers of SND (R20 to R35). -/
structure Sender where
  phase : SndPhase
  base : Seq
  nextSeq : Seq
  outstanding : BitVec 3
  sentCount : Count
  ackedCount : Count
  inFlight : List Entry
  doNothing : Bool
  resend : Bool
  sendEot : Bool
  srcDone : Bool
  cause : CauseCode
deriving DecidableEq, Repr

/-- The registers of RCV (R36, R37). -/
structure Receiver where
  phase : RcvPhase
  expectedSeq : Seq
  cause : CauseCode
deriving DecidableEq, Repr

/-- Memory as a list of (address, byte): addresses strictly rising, no entry equal to 0x00 (log 2). -/
abbrev Memory := List Host.Cell

/-- What belongs to one instance beside its engine's registers: the frame buffer, DECODE's result, the event log, the
datagrams on their way to it, and the outside world's decisions about it. -/
structure Side where
  /-- the frame buffer FB, 33 bytes (R60) -/
  fb : Memory
  /-- the frame the last DECODE returned (log 4) -/
  decoded : Frame
  /-- the events recorded so far, oldest first (R78, R258) -/
  log : List Event
  /-- the bag of datagrams on their way to this instance (R71) -/
  inbox : List Datagram
  /-- the Channel's answers to the next sends of this instance; when none is left a send is taken (log 5) -/
  answers : List SendAnswer
  /-- after how many more external calls of this instance the host asserts rst (log 6) -/
  rstAt : Option Nat
deriving DecidableEq, Repr

/-- The Source (R66 to R68): its chunks never change during a transfer; `cursor` is the chunk `SrcNext` reads next;
`flagsLast` says whether it marks its last chunk with isLast (R67(a)). -/
structure Source where
  chunks : List (List Byte)
  cursor : Nat
  flagsLast : Bool
deriving DecidableEq, Repr

/-- A correction RESYNC_ADJ as plain data (R10): the counts at which it differs from the default, each with its value, or with
`none` where it is not defined there. The empty table is the default; every function of a count has a table. Log 9. -/
abbrev Correction := List (Count × Option Count)

/-- The machine: a link and its environment. -/
structure State where
  snd : Sender
  rcv : Receiver
  sndSide : Side
  rcvSide : Side
  /-- the RESYNC_ADJ this link's SENDER instance is built with, a parameter that no operation writes (R10; log 9) -/
  adj : Correction
  src : Source
  /-- the bytes appended to the Sink so far (R77) -/
  sink : List Byte
  /-- the moves still to come, oldest first (log 7) -/
  script : List Move
deriving DecidableEq, Repr

/-- The model's own stops. The block's eight faults are not here: they are next states (R252). -/
inductive Fault where
  /-- raised by a frame buffer access outside offsets 0 to 32, where MemRead and MemWrite are not defined (00_scope.md
  section 6, R60); safe; no operation of the block makes one -/
  | fbRange
deriving DecidableEq, Repr

/-- Why the model answers nothing. All are safe: the model stops where the spec gives the block no behaviour. -/
inductive Refusal where
  /-- raised by exec for an instruction that has no meaning yet; safe -/
  | notModelled (mnemonic : String)
  /-- raised by step: the bytes at the operation port are no row's word for their reader; safe -/
  | undecodable (e : DecodeError)
  /-- raised by ENCODE and Data on operands outside the valid ranges, which the spec tells a model to refuse (R120, R123,
  RV6); safe -/
  | illFormed (mnemonic : String)
  /-- raised by a row run where the table's context or condition for it does not hold, so that the block never performs it
  there (R98, R99); safe -/
  | notSelected (mnemonic : String)
  /-- raised by SND.START when the Source's cursor is not at chunk 0, which the spec tells a model to refuse (R282(d), RV9);
  safe -/
  | sourceCursor
  /-- raised by the platform's move `load` during a transfer: a Source whose content changes, which the spec tells a model to
  refuse (R68, RV9); safe -/
  | sourceChanged
  /-- raised by the platform's move `newSink` outside IDLE of RCV: the spec asks for the Sink's content before start and says
  nothing of replacing it later (R77, R228, R282(e)); safe. Log 16. -/
  | sinkChanged
deriving DecidableEq, Repr

/-- The registers of a SENDER after rst (R40, R280). -/
def senderReset : Sender :=
  { phase := .idle
    base := 0#3
    nextSeq := 0#3
    outstanding := 0#3
    sentCount := 0#32
    ackedCount := 0#32
    inFlight := []
    doNothing := false
    resend := false
    sendEot := false
    srcDone := false
    cause := 0#4 }

/-- The registers of a RECEIVER after rst (R40, R280). -/
def receiverReset : Receiver :=
  { phase := .idle
    expectedSeq := 0#3
    cause := 0#4 }

/-- An instance's surroundings before a first transfer (log 2 to log 6). -/
def sideReset : Side :=
  { fb := []
    decoded := frameAck 0#3
    log := []
    inbox := []
    answers := []
    rstAt := none }

/-- The machine right after reset: both instances as R40 says, the environment before a first transfer (R39, R66, R77, R282;
log 3), and the default RESYNC_ADJ (R10; log 9). -/
def State.reset : State :=
  { snd := senderReset
    rcv := receiverReset
    sndSide := sideReset
    rcvSide := sideReset
    adj := []
    src := { chunks := [], cursor := 0, flagsLast := false }
    sink := []
    script := [] }

end Sys2Proof.Machine
end

