-- ==== Sys2Proof/Machine/Operands.lean ====
section
/-! DEFINITION. The operands of the operations: the frame codes of the faults, the valid part of `inFlight`, ACK's scan, the
sequence space, and the correction RESYNC_ADJ. -/

namespace Sys2Proof.Machine

/-- The code a fault writes to `cause` (R240). -/
def faultCode : FaultCode → CauseCode
  | .malformedShort => 1#4
  | .malformedField => 2#4
  | .sourceZero => 3#4
  | .channelSend => 4#4
  | .channelRecv => 5#4
  | .resyncUnderflow => 6#4
  | .counterOverflow => 7#4
  | .sourceProto => 8#4

/-- The fault DECODE raises for each of its failed tests (R121). -/
def frameFault : FrameError → FaultCode
  | .short => .malformedShort
  | .kind => .malformedField
  | .seq => .malformedField
  | .len => .malformedField

/-- The numbers of SND's phases (R34). -/
def sndPhaseCode : SndPhase → BitVec 3
  | .idle => 0#3
  | .cycle => 1#3
  | .wait => 2#3
  | .eotWait => 3#3
  | .done => 4#3
  | .fault => 5#3

/-- The numbers of RCV's phases (R37). -/
def rcvPhaseCode : RcvPhase → BitVec 2
  | .idle => 0#2
  | .wait => 1#2
  | .done => 2#2
  | .fault => 3#2

/-- The valid entries of `inFlight`, front first: those below index `outstanding`; the others hold no value (R26). -/
def window (sn : Sender) : List Entry :=
  sn.inFlight.take sn.outstanding.toNat

/-- ACK's scan from the front: how many entries it counts up to and including the first that carries `n` (R173). -/
def scanWindow (n : Seq) : List Entry → Option Nat
  | [] => none
  | e :: rest =>
    if e.seq = n then some 1
    else
      match scanWindow n rest with
      | some c => some (c + 1)
      | none => none

/-- `sentCount mod 8` (R24, R173). -/
def sentMod8 (sn : Sender) : Seq :=
  sn.sentCount.setWidth 3

/-- The default of RESYNC_ADJ: the count less one, not defined at 0 (R10, R177). -/
def resyncDefault (a : Count) : Option Count :=
  if a = 0#32 then none else some (a - 1#32)

/-- RESYNC_ADJ of an instance: what its table says of a count, the default where it says nothing (R10). Log 9. -/
def resyncAdj : Correction → Count → Option Count
  | [], a => resyncDefault a
  | c :: rest, a => if c.1 = a then c.2 else resyncAdj rest a

/-- The peer of an instance on the link (R2). -/
def peer : Role → Role
  | .sender => .receiver
  | .receiver => .sender

end Sys2Proof.Machine
end

