-- ==== Sys2Proof/Machine/Flags.lean ====
section
/-! DEFINITION. The flags that are functions of the registers, never stored: full and empty (R29, R142), the late-frame test
(R174), done and fault (R35), and the branch ACK takes (R172, R173). -/

namespace Sys2Proof.Machine

/-- `full = (outstanding == 7)` (R29, R142). -/
def isFull (sn : Sender) : Bool :=
  decide (sn.outstanding = 7#3)

/-- `empty = (outstanding == 0)` (R29, R142). -/
def isEmpty (sn : Sender) : Bool :=
  decide (sn.outstanding = 0#3)

/-- The late-frame test of ACK(n): `srcDone == 1 and outstanding < 6 and n == sentCount mod 8` (R173, R174). -/
def lateTest (n : Seq) (sn : Sender) : Bool :=
  sn.srcDone && decide (sn.outstanding.toNat < 6) && decide (n = sentMod8 sn)

/-- The branch of ACK(n), tried in the order of R172 and R173. -/
def ackBranch (n : Seq) (sn : Sender) : AckBranch :=
  if sn.doNothing then .discard
  else if (scanWindow n (window sn)).isSome then .cum
  else if lateTest n sn then .late
  else .resync

/-- The status outputs of SND (R35). -/
def sndDone (sn : Sender) : Bool := decide (sn.phase = .done)

/-- `fault` of SND (R35). -/
def sndFault (sn : Sender) : Bool := decide (sn.phase = .fault)

/-- `done` of RCV (R35, R37). -/
def rcvDone (rc : Receiver) : Bool := decide (rc.phase = .done)

/-- `fault` of RCV (R35, R37). -/
def rcvFault (rc : Receiver) : Bool := decide (rc.phase = .fault)

end Sys2Proof.Machine
end

