-- ==== Sys2Proof/Machine/Ops.lean ====
section
/-! DEFINITION. The operations every meaning is built from: the frame buffer's memory, the parts of State, taking a fault and
leaving it (R252, R253), the external calls (R13, R69 to R78), and the CODEC as an engine calls it (R120, R121). -/

namespace Sys2Proof.Machine

/-! ### The frame buffer (R60, R65) -/

/-- The byte at an offset; an unlisted offset reads as 0x00 (log 2). -/
def memGet : Memory → Nat → Byte
  | [], _ => 0#8
  | c :: rest, a => if c.1 = a then c.2 else memGet rest a

/-- The memory without any entry for this offset. -/
def memErase : Memory → Nat → Memory
  | [], _ => []
  | c :: rest, a => if c.1 = a then memErase rest a else c :: memErase rest a

/-- An entry put in front of the first larger offset. -/
def memInsert : Memory → Nat → Byte → Memory
  | [], a, v => [(a, v)]
  | c :: rest, a, v => if a < c.1 then (a, v) :: c :: rest else c :: memInsert rest a v

/-- One byte written; writing 0x00 removes the entry, so equal memories are equal lists. -/
def memSet (m : Memory) (a : Nat) (v : Byte) : Memory :=
  if v = 0#8 then memErase m a else memInsert (memErase m a) a v

/-- Bytes written at rising offsets. -/
def memSetAll : Memory → Nat → List Byte → Memory
  | m, _, [] => m
  | m, a, b :: rest => memSetAll (memSet m a b) (a + 1) rest

/-- `MemRead(FB, a, n)`: defined only inside the 33 bytes (00_scope.md section 6). -/
def memRead (m : Memory) (a n : Nat) : Except Fault (List Byte) :=
  if a + n ≤ Config.frameBytes then .ok ((List.range n).map (fun i => memGet m (a + i))) else .error .fbRange

/-- `MemWrite(FB, a, n, v)`: defined only inside the 33 bytes (00_scope.md section 6). -/
def memWrite (m : Memory) (a : Nat) (v : List Byte) : Except Fault Memory :=
  if a + v.length ≤ Config.frameBytes then .ok (memSetAll m a v) else .error .fbRange

/-- The addresses of a memory rise strictly. -/
def memSorted : Memory → Bool
  | [] => true
  | [_] => true
  | c :: d :: rest => decide (c.1 < d.1) && memSorted (d :: rest)

/-- The canonical form: addresses strictly rising and inside the buffer, no entry equal to 0x00 (log 2). -/
def Memory.wf (m : Memory) : Bool :=
  memSorted m && m.all (fun c => decide (c.1 < Config.frameBytes) && decide (c.2 ≠ 0#8))

/-- ENCODE's four writes (R120). -/
def encodeInto (m : Memory) (f : Frame) : Except Fault Memory :=
  (memWrite m 0 [kindCode f.kind]).bind fun m =>
  (memWrite m 1 [f.seq.setWidth 8]).bind fun m =>
  (memWrite m 2 [f.len.setWidth 8]).bind fun m =>
  memWrite m 3 f.payload

/-! ### The parts of State -/

/-- What belongs to an instance. -/
def State.side (s : State) : Role → Side
  | .sender => s.sndSide
  | .receiver => s.rcvSide

/-- Replaces what belongs to an instance. -/
def State.setSide (s : State) (e : Role) (x : Side) : State :=
  match e with
  | .sender => { s with sndSide := x }
  | .receiver => { s with rcvSide := x }

/-- Replaces the registers of SND. -/
def State.setSnd (s : State) (x : Sender) : State := { s with snd := x }

/-- Replaces the registers of RCV. -/
def State.setRcv (s : State) (x : Receiver) : State := { s with rcv := x }

/-- Replaces the Source. -/
def State.setSrc (s : State) (x : Source) : State := { s with src := x }

/-- Replaces the Sink's bytes. -/
def State.setSink (s : State) (x : List Byte) : State := { s with sink := x }

/-- Replaces the moves still to come. -/
def State.setScript (s : State) (x : List Move) : State := { s with script := x }

/-- `phase <- p` of SND. -/
def State.setSndPhase (s : State) (p : SndPhase) : State := s.setSnd { s.snd with phase := p }

/-- `phase <- p` of RCV. -/
def State.setRcvPhase (s : State) (p : RcvPhase) : State := s.setRcv { s.rcv with phase := p }

/-! ### Taking a fault and leaving it -/

/-- Taking a fault, in either engine (R252): `cause` gets the code, `phase` gets FAULT, every other register keeps its
value, nothing is saved. -/
def takeFault (e : Role) (c : FaultCode) (s : State) : State :=
  match e with
  | .sender => s.setSnd { s.snd with cause := faultCode c, phase := .fault }
  | .receiver => s.setRcv { s.rcv with cause := faultCode c, phase := .fault }

/-- RESET of an instance (R280): the only way out of FAULT and DONE (R253). It touches the block alone (R281): the
environment keeps what it holds, and the host's rst is spent. R40 and R280 name neither the frame buffer nor DECODE's result:
that both keep what the earlier transfer left in them is the model's choice (log 15). -/
def resetEngine (e : Role) (s : State) : State :=
  match e with
  | .sender => (s.setSnd senderReset).setSide .sender { s.sndSide with rstAt := none }
  | .receiver => (s.setRcv receiverReset).setSide .receiver { s.rcvSide with rstAt := none }

/-! ### The running of an operation -/

/-- Where an operation stands: it goes on with a value; or it ended early, by a fault taken or by an rst, and what it had
done stays done (R252, R280); or the model itself stops. -/
inductive Res (α : Type) where
  | ok (a : α) (s : State)
  | stop (s : State)
  | halt (f : Fault)

/-- Sequencing: what follows runs only when the operation goes on. -/
def Res.bind {α β : Type} (r : Res α) (k : α → State → Res β) : Res β :=
  match r with
  | .ok a s => k a s
  | .stop s => .stop s
  | .halt f => .halt f

/-- What a meaning answers: a fault taken and an rst are next states. -/
def Res.outcome {α : Type} (r : Res α) : Host.Outcome State Fault Refusal :=
  match r with
  | .ok _ s => .next s
  | .stop s => .next s
  | .halt f => .fault f

/-- `raise Fault(c)` (R252): nothing after it runs. -/
def raise {α : Type} (e : Role) (c : FaultCode) (s : State) : Res α :=
  .stop (takeFault e c s)

/-- One external call of an engine. An rst the host asserts at this point abandons the operation before the call (R280). -/
def external {α : Type} (e : Role) (s : State) (k : State → Res α) : Res α :=
  match (s.side e).rstAt with
  | none => k s
  | some 0 => .stop (resetEngine e s)
  | some (n + 1) => k (s.setSide e { s.side e with rstAt := some n })

/-! ### The external calls -/

/-- The datagram enters the bag towards the peer (R71). -/
def deposit (e : Role) (b : Datagram) (s : State) : State :=
  s.setSide (peer e) { s.side (peer e) with inbox := (s.side (peer e)).inbox ++ [b] }

/-- `ChSend(b)`: ok, or Error and the fault CHANNEL_SEND of the engine that called (R69, R244). Taken or lost, the engine sees
ok. The answers come from the outside world; when none is left the datagram is taken. R69 says what ok means and not whether a
datagram whose send answered Error is in the Channel: that it may be or not, as the answer says, is the model's choice (log 5). -/
def chSend (e : Role) (b : Datagram) (s : State) : Res Unit :=
  external e s fun s =>
    match (s.side e).answers with
    | [] => .ok () (deposit e b s)
    | .taken :: rest => .ok () (deposit e b (s.setSide e { s.side e with answers := rest }))
    | .lost :: rest => .ok () (s.setSide e { s.side e with answers := rest })
    | .error false :: rest => raise e .channelSend (s.setSide e { s.side e with answers := rest })
    | .error true :: rest => raise e .channelSend (deposit e b (s.setSide e { s.side e with answers := rest }))

/-- `Record(ev)`: appended to the log of the engine that records (R78, R258). -/
def record (e : Role) (ev : Event) (s : State) : Res Unit :=
  external e s fun s => .ok () (s.setSide e { s.side e with log := (s.side e).log ++ [ev] })

/-- The Source's answer to `SrcNext()` (R67); the length of a chunk is that of its bytes. -/
inductive SrcAnswer where
  | chunk (d : List Byte) (isLast : Bool)
  | exhausted
deriving DecidableEq, Repr

/-- The cursor after `SrcNext()` has answered chunk c with these bytes. R67(a) moves it to c + 1 past a chunk of 1 to 30 bytes;
after a zero-length or an over-long one, where R67(c) and (d) are silent, it is a free value, which is the model's choice
(log 17). -/
def srcCursorAfter (c : Nat) (d : List Byte) : Nat :=
  if 1 ≤ d.length ∧ d.length ≤ Config.chunkBytes then c + 1 else Config.brokenChunkCursor c d

/-- `SrcNext()` (R67): chunk c, and the cursor as `srcCursorAfter` says (log 17), or Exhausted and it stays. -/
def srcNext (s : State) : Res SrcAnswer :=
  external .sender s fun s =>
    match s.src.chunks[s.src.cursor]? with
    | some d =>
      .ok (.chunk d (s.src.flagsLast && decide (s.src.cursor + 1 = s.src.chunks.length)))
        (s.setSrc { s.src with cursor := srcCursorAfter s.src.cursor d })
    | none => .ok .exhausted s

/-- `SrcSeek(i)` (R66). -/
def srcSeek (i : Nat) (s : State) : Res Unit :=
  external .sender s fun s => .ok () (s.setSrc { s.src with cursor := i })

/-- `SinkAppend(d)` (R77). -/
def sinkAppend (d : List Byte) (s : State) : Res Unit :=
  external .receiver s fun s => .ok () (s.setSink (s.sink ++ d))

/-! ### The CODEC as an engine calls it -/

/-- ENCODE of a valid frame: FB gets its 33 bytes, which are the result (R120). -/
def encodeOp (e : Role) (f : Frame) (s : State) : Res Datagram :=
  match encodeInto (s.side e).fb f with
  | .error r => .halt r
  | .ok m =>
    match memRead m 0 Config.frameBytes with
    | .error r => .halt r
    | .ok b => .ok b (s.setSide e { s.side e with fb := m })

/-- `ChSend(ENCODE(f))`. -/
def sendFrame (e : Role) (f : Frame) (s : State) : Res Unit :=
  (encodeOp e f s).bind fun b s => chSend e b s

/-- DECODE of a buffer: a valid frame, or a fault taken by the engine that called (R121). -/
def decodeOp (e : Role) (b : Datagram) (s : State) : Res Frame :=
  match decodeFrame b with
  | .error err => raise e (frameFault err) s
  | .ok f => .ok f (s.setSide e { s.side e with decoded := f })

/-- A row that the block performs only in this context and under this condition of the table. -/
def onlyWhen (ok : Bool) (mnemonic : String) (r : Host.Outcome State Fault Refusal) : Host.Outcome State Fault Refusal :=
  if ok then r else .refused (.notSelected mnemonic)

end Sys2Proof.Machine
end

