-- ==== Sys2Proof/Machine/Codec.lean ====
section
/-! DEFINITION. The rows of the CODEC (40_codec.md): the four constructors, ENCODE and DECODE. The CODEC is pure and belongs to
no phase (R120, R121); a constructor is an ENCODE of the frame whose fields it fills (R101), in the instance that sends frames
of its kind: RCV sends Ack and EotAck, SND sends Data and Eot. -/

namespace Sys2Proof.Machine

/-- Ack(n) (R124): FB gets the 33 bytes of the frame. -/
def execAck (n : Seq) (s : State) : Host.Outcome State Fault Refusal :=
  (encodeOp .receiver (frameAck n) s).outcome

/-- Data(n, len, d) (R123): `len` at most 30 and `d` of `len` bytes; the spec gives no meaning beyond and tells a model to
refuse it (D31, RV6). -/
def execData (n : Seq) (len : Len) (d : List Byte) (s : State) : Host.Outcome State Fault Refusal :=
  if len.toNat ≤ Config.chunkBytes ∧ d.length = len.toNat then (encodeOp .sender (frameData n len d) s).outcome
  else .refused (.illFormed "Data")

/-- EotAck(n) (R124). -/
def execEotAck (n : Seq) (s : State) : Host.Outcome State Fault Refusal :=
  (encodeOp .receiver (frameEotAck n) s).outcome

/-- Eot(n) (R124). -/
def execEot (n : Seq) (s : State) : Host.Outcome State Fault Refusal :=
  (encodeOp .sender (frameEot n) s).outcome

/-- ENCODE(f) (R120): defined on a valid frame; the spec tells a model to refuse another (RV6). -/
def execEncode (e : Role) (f : Frame) (s : State) : Host.Outcome State Fault Refusal :=
  if frameWf f then (encodeOp e f s).outcome else .refused (.illFormed "ENCODE")

/-- The engine of an instance is in a phase in which it receives: WAIT or EOTWAIT (R98). -/
def receiving (e : Role) (s : State) : Bool :=
  match e with
  | .sender => decide (s.snd.phase = .wait) || decide (s.snd.phase = .eotWait)
  | .receiver => decide (s.rcv.phase = .wait)

/-- DECODE(b) (R121), by an engine that received a buffer. -/
def execDecode (e : Role) (b : Datagram) (s : State) : Host.Outcome State Fault Refusal :=
  onlyWhen (receiving e s) "DECODE" (decodeOp e b s).outcome

end Sys2Proof.Machine
end

