-- ==== Sys2Proof/Machine/ReceiverOps.lean ====
section
/-! DEFINITION. The operations of RCV as bodies over State, from the pseudocode of 44_receiver.md. -/

namespace Sys2Proof.Machine

/-- RCV.DATA(f) (R222): append, record, reply, advance, in this order. The reply carries the number before the advance. -/
def rcvDataBody (f : Body) (s : State) : Res Unit :=
  (sinkAppend (f.payload.take f.len.toNat) s).bind fun _ s =>
  (record .receiver (.dataRx f.seq) s).bind fun _ s =>
  (sendFrame .receiver (frameAck s.rcv.expectedSeq) s).bind fun _ s =>
    .ok () (s.setRcv { s.rcv with expectedSeq := s.rcv.expectedSeq + 1#3 })

/-- RCV.EOT(f) (R223). -/
def rcvEotBody (f : Body) (s : State) : Res Unit :=
  (record .receiver (.eotRx f.seq) s).bind fun _ s =>
  (sendFrame .receiver (frameEotAck f.seq) s).bind fun _ s =>
    .ok () (s.setRcvPhase .done)

/-- RCV.OOO (R224): the reply carries the number RCV waits for. -/
def rcvOooBody (s : State) : Res Unit :=
  sendFrame .receiver (frameAck s.rcv.expectedSeq) s

/-- RCV.IGNORE: no append, no record, no reply, no register change (R225). -/
def rcvIgnoreBody (s : State) : Res Unit :=
  .ok () s

/-- RCV.TIMEOUT: nothing; RCV waits again (R226). -/
def rcvTimeoutBody (s : State) : Res Unit :=
  .ok () s

/-- RCV.EVENT's selection on a decoded frame: the sequence number before the kind (R221). -/
def rcvFrameBody (f : Frame) (s : State) : Res Unit :=
  if f.seq = s.rcv.expectedSeq then
    match f.kind with
    | .data => rcvDataBody (frameBody f) s
    | .eot => rcvEotBody (frameBody f) s
    | .ack => rcvIgnoreBody s
    | .eotAck => rcvIgnoreBody s
  else rcvOooBody s

/-- RCV.EVENT(a) (R221). -/
def rcvEventBody (a : Answer) (s : State) : Res Unit :=
  match a with
  | .error => raise .receiver .channelRecv s
  | .timeout => rcvTimeoutBody s
  | .buffer b => (decodeOp .receiver b s).bind rcvFrameBody

end Sys2Proof.Machine
end

