-- ==== Sys2Proof/Machine/Receiver.lean ====
section
/-! DEFINITION. The rows of RCV in WAIT (44_receiver.md). -/

namespace Sys2Proof.Machine

/-- RCV is in phase WAIT. -/
def rcvWaiting (s : State) : Bool := decide (s.rcv.phase = .wait)

/-- The frame's number is the one RCV waits for (R221). -/
def inOrder (f : Body) (s : State) : Bool := decide (f.seq = s.rcv.expectedSeq)

/-- RCV.EVENT(a) (R221). -/
def execRcvEvent (a : Answer) (s : State) : Host.Outcome State Fault Refusal :=
  onlyWhen (rcvWaiting s) "RCV.EVENT" (rcvEventBody a s).outcome

/-- RCV.DATA(f) (R222): `seqNum == expectedSeq`. -/
def execRcvData (f : Body) (s : State) : Host.Outcome State Fault Refusal :=
  onlyWhen (rcvWaiting s && inOrder f s) "RCV.DATA" (rcvDataBody f s).outcome

/-- RCV.EOT(f) (R223): `seqNum == expectedSeq`. -/
def execRcvEot (f : Body) (s : State) : Host.Outcome State Fault Refusal :=
  onlyWhen (rcvWaiting s && inOrder f s) "RCV.EOT" (rcvEotBody f s).outcome

/-- RCV.OOO (R224): `seqNum != expectedSeq`, any kind. -/
def execRcvOoo (_k : Kind) (f : Body) (s : State) : Host.Outcome State Fault Refusal :=
  onlyWhen (rcvWaiting s && !inOrder f s) "RCV.OOO" (rcvOooBody s).outcome

/-- RCV.IGNORE of an Ack frame (R225): `seqNum == expectedSeq`. -/
def execRcvIgnoreAck (f : Body) (s : State) : Host.Outcome State Fault Refusal :=
  onlyWhen (rcvWaiting s && inOrder f s) "RCV.IGNORE(Ack)" (rcvIgnoreBody s).outcome

/-- RCV.IGNORE of an EotAck frame (R225): `seqNum == expectedSeq`. -/
def execRcvIgnoreEotAck (f : Body) (s : State) : Host.Outcome State Fault Refusal :=
  onlyWhen (rcvWaiting s && inOrder f s) "RCV.IGNORE(EotAck)" (rcvIgnoreBody s).outcome

/-- RCV.TIMEOUT (R226). -/
def execRcvTimeout (s : State) : Host.Outcome State Fault Refusal :=
  onlyWhen (rcvWaiting s) "RCV.TIMEOUT" (rcvTimeoutBody s).outcome

end Sys2Proof.Machine
end

