-- ==== Sys2Proof/Machine/SenderOps.lean ====
section
/-! DEFINITION. The operations of SND as bodies over State, from the pseudocode of 41_sender_cycle.md, 42_sender_events.md and
43_sender_eot.md. A body does not test the phase it is performed in: the meanings of the rows do. -/

namespace Sys2Proof.Machine

/-! ### The cycle (41_sender_cycle.md) -/

/-- The registers after a chunk has been transmitted for the first time (R144): the entry stands at index `outstanding`. -/
def pushWindow (sn : Sender) (isLast : Bool) : Sender :=
  { sn with
    inFlight := window sn ++ [{ seq := sn.nextSeq, off := sn.sentCount }]
    outstanding := sn.outstanding + 1#3
    nextSeq := sn.nextSeq + 1#3
    sentCount := sn.sentCount + 1#32
    srcDone := sn.srcDone || isLast }

/-- TXNEW (R144). -/
def txNewBody (s : State) : Res Unit :=
  (srcNext s).bind fun r s =>
    match r with
    | .exhausted => .ok () (s.setSnd { s.snd with srcDone := true })
    | .chunk d isLast =>
      if d.length = 0 then raise .sender .sourceZero s
      else if Config.chunkBytes < d.length then raise .sender .sourceProto s
      else if s.snd.sentCount = Config.maxCount then raise .sender .counterOverflow s
      else
        (sendFrame .sender (frameData s.snd.nextSeq (BitVec.ofNat 5 d.length) d) s).bind fun _ s =>
          .ok () (s.setSnd (pushWindow s.snd isLast))

/-- FILL's loop `while outstanding < 7 and srcDone == 0` (R143), cut off after `n` rounds. Each round sets `srcDone` or raises
`outstanding`, so seven rounds are the whole loop. -/
def fillLoop : Nat → State → Res Unit
  | 0, s => .ok () s
  | n + 1, s =>
    if s.snd.outstanding.toNat < Config.windowSize ∧ s.snd.srcDone = false then
      (txNewBody s).bind fun _ s => fillLoop n s
    else .ok () s

/-- FILL (R143). -/
def fillBody (s : State) : Res Unit :=
  fillLoop Config.windowSize s

/-- TXOLD of an entry: its chunk is read again from the Source (R146). -/
def txOldBody (en : Entry) (s : State) : Res Unit :=
  (srcSeek en.off.toNat s).bind fun _ s =>
  (srcNext s).bind fun r s =>
    match r with
    | .exhausted => raise .sender .sourceProto s
    | .chunk d _ =>
      if d.length = 0 then raise .sender .sourceZero s
      else if Config.chunkBytes < d.length then raise .sender .sourceProto s
      else sendFrame .sender (frameData en.seq (BitVec.ofNat 5 d.length) d) s

/-- TXOLD of each entry in turn, front first (R145). -/
def txOldAll : List Entry → State → Res Unit
  | [], s => .ok () s
  | en :: rest, s => (txOldBody en s).bind fun _ s => txOldAll rest s

/-- RESEND (R145). -/
def resendBody (s : State) : Res Unit :=
  (txOldAll (window s.snd) s).bind fun _ s =>
  (srcSeek s.snd.sentCount.toNat s).bind fun _ s =>
    .ok () (s.setSnd { s.snd with resend := false })

/-- EOT.SEND (R200). -/
def eotSendBody (s : State) : Res Unit :=
  (sendFrame .sender (frameEot s.snd.base) s).bind fun _ s => .ok () (s.setSndPhase .eotWait)

/-- FILL where SND.CYCLE runs it: `doNothing == 0 and srcDone == 0 and not full` (R141, R143). -/
def cycleFill (s : State) : Res Unit :=
  if s.snd.doNothing = false ∧ s.snd.srcDone = false ∧ isFull s.snd = false then fillBody s else .ok () s

/-- RESEND where SND.CYCLE runs it: `resend == 1` (R141, R145). -/
def cycleResend (s : State) : Res Unit :=
  if s.snd.resend then resendBody s else .ok () s

/-- SND.CYCLE (R141): the handshake if requested, else FILL, then RESEND, then the wait. -/
def sndCycleBody (s : State) : Res Unit :=
  if s.snd.sendEot then eotSendBody s
  else
    (cycleFill s).bind fun _ s =>
    (cycleResend s).bind fun _ s =>
      .ok () (s.setSndPhase .wait)

/-! ### The events of WAIT (42_sender_events.md) -/

/-- The registers after TIMEOUT (R171). -/
def timeoutRegs (sn : Sender) : Sender :=
  if sn.outstanding = 0#3 then { sn with doNothing := false, sendEot := sn.sendEot || sn.srcDone }
  else if sn.doNothing then sn
  else { sn with resend := true }

/-- TIMEOUT (R171). -/
def timeoutBody (s : State) : Res Unit :=
  .ok () (s.setSnd (timeoutRegs s.snd))

/-- One entry popped from the front (R175). -/
def popOne (sn : Sender) : Sender :=
  { sn with
    inFlight := (window sn).drop 1
    base := sn.base + 1#3
    ackedCount := sn.ackedCount + 1#32
    outstanding := sn.outstanding - 1#3 }

/-- ACK.CUM(count) on the registers: `repeat count times` (R175). -/
def popMany : Nat → Sender → Sender
  | 0, sn => sn
  | n + 1, sn => popMany n (popOne sn)

/-- ACK.CUM(count) (R175). -/
def ackCumBody (count : Nat) (s : State) : Res Unit :=
  .ok () (s.setSnd (popMany count s.snd))

/-- ACK.LATE: `ACK.CUM(outstanding)` (R174). -/
def ackLateBody (s : State) : Res Unit :=
  ackCumBody s.snd.outstanding.toNat s

/-- The registers RESYNC(n) writes before it rewinds the Source, `a` being the corrected count (R177). -/
def resyncRegs (n : Seq) (a : Count) (sn : Sender) : Sender :=
  { sn with
    inFlight := []
    outstanding := 0#3
    base := n
    nextSeq := n
    ackedCount := a
    sentCount := a
    srcDone := false }

/-- RESYNC(n) under a given RESYNC_ADJ (R10, R177). -/
def resyncWith (adj : Count → Option Count) (n : Seq) (s : State) : Res Unit :=
  match adj s.snd.ackedCount with
  | none => raise .sender .resyncUnderflow s
  | some a =>
    (srcSeek a.toNat (s.setSnd (resyncRegs n a s.snd))).bind fun _ s =>
      .ok () (s.setSnd { s.snd with doNothing := true })

/-- RESYNC(n) with the RESYNC_ADJ of this instance (R10, R177). -/
def resyncBody (n : Seq) (s : State) : Res Unit :=
  resyncWith (resyncAdj s.adj) n s

/-- ACK.RESYNC(n): `RESYNC(n)` (R176). -/
def ackResyncBody (n : Seq) (s : State) : Res Unit :=
  resyncBody n s

/-- ACK.DISCARD: no register changes, nothing is recorded (R172). -/
def ackDiscardBody (s : State) : Res Unit :=
  .ok () s

/-- ACK(n): discard, or record and take the branch the scan and the late-frame test select (R173). -/
def ackBody (n : Seq) (s : State) : Res Unit :=
  if s.snd.doNothing then ackDiscardBody s
  else
    (record .sender (.ackRx n) s).bind fun _ s =>
      match scanWindow n (window s.snd) with
      | some count => ackCumBody count s
      | none => if lateTest n s.snd then ackLateBody s else ackResyncBody n s

/-- SND.IGNORE: no register changes, nothing is recorded (R178). -/
def sndIgnoreBody (s : State) : Res Unit :=
  .ok () s

/-- SND.EVENT's selection on a decoded frame (R170). -/
def sndFrameBody (f : Frame) (s : State) : Res Unit :=
  match f.kind with
  | .ack => ackBody f.seq s
  | .data => sndIgnoreBody s
  | .eotAck => sndIgnoreBody s
  | .eot => sndIgnoreBody s

/-- SND.EVENT before its last line (R170). -/
def sndAnswerBody (a : Answer) (s : State) : Res Unit :=
  match a with
  | .error => raise .sender .channelRecv s
  | .timeout => timeoutBody s
  | .buffer b => (decodeOp .sender b s).bind sndFrameBody

/-- SND.EVENT(a) (R170): its last line is `phase <- CYCLE`. -/
def sndEventBody (a : Answer) (s : State) : Res Unit :=
  (sndAnswerBody a s).bind fun _ s => .ok () (s.setSndPhase .cycle)

/-! ### The handshake (43_sender_eot.md) -/

/-- EOT.ACKED(n) (R202): `n` is recorded, not compared. -/
def eotAckedBody (n : Seq) (s : State) : Res Unit :=
  (record .sender (.eotAckRx n) s).bind fun _ s => .ok () (s.setSndPhase .done)

/-- EOT.OTHER(n) (R203). -/
def eotOtherBody (n : Seq) (s : State) : Res Unit :=
  (resyncBody n s).bind fun _ s => .ok () (s.setSnd { s.snd with sendEot := false, phase := .cycle })

/-- EOT.TIMEOUT: `phase <- CYCLE` (R204). -/
def eotTimeoutBody (s : State) : Res Unit :=
  .ok () (s.setSndPhase .cycle)

/-- EOT.EVENT's selection on a decoded frame (R201). -/
def eotFrameBody (f : Frame) (s : State) : Res Unit :=
  match f.kind with
  | .eotAck => eotAckedBody f.seq s
  | .ack => eotOtherBody f.seq s
  | .data => eotOtherBody f.seq s
  | .eot => eotOtherBody f.seq s

/-- EOT.EVENT(a) (R201). -/
def eotEventBody (a : Answer) (s : State) : Res Unit :=
  match a with
  | .error => raise .sender .channelRecv s
  | .timeout => eotTimeoutBody s
  | .buffer b => (decodeOp .sender b s).bind eotFrameBody

end Sys2Proof.Machine
end

