-- ==== Sys2Proof/Machine/SenderCycle.lean ====
section
/-! DEFINITION. The rows of SND's own initiative: SND.CYCLE and the operations inside it (41_sender_cycle.md) and EOT.SEND
(43_sender_eot.md). Each runs where the table's context and its rule's entry condition hold. -/

namespace Sys2Proof.Machine

/-- SND.CYCLE does not take the handshake: phase CYCLE and `sendEot == 0` (R141). -/
def inCycle (sn : Sender) : Bool :=
  decide (sn.phase = .cycle) && !sn.sendEot

/-- SND.CYCLE (R141), in phase CYCLE. -/
def execSndCycle (s : State) : Host.Outcome State Fault Refusal :=
  onlyWhen (decide (s.snd.phase = .cycle)) "SND.CYCLE" (sndCycleBody s).outcome

/-- FILL (R143): inside SND.CYCLE, entered only if `doNothing == 0`. -/
def execFill (s : State) : Host.Outcome State Fault Refusal :=
  onlyWhen (inCycle s.snd && !s.snd.doNothing) "FILL" (fillBody s).outcome

/-- TXNEW (R144): inside FILL, requires `outstanding < 7 and srcDone == 0`. -/
def execTxNew (s : State) : Host.Outcome State Fault Refusal :=
  onlyWhen (inCycle s.snd && !s.snd.doNothing && !isFull s.snd && !s.snd.srcDone) "TXNEW" (txNewBody s).outcome

/-- RESEND (R145): inside SND.CYCLE, entered only if `resend == 1`. -/
def execResend (s : State) : Host.Outcome State Fault Refusal :=
  onlyWhen (inCycle s.snd && s.snd.resend) "RESEND" (resendBody s).outcome

/-- TXOLD(i) (R146): inside RESEND, `i` in `0 .. outstanding - 1`. -/
def execTxOld (i : BitVec 3) (s : State) : Host.Outcome State Fault Refusal :=
  match (window s.snd)[i.toNat]? with
  | some en => onlyWhen (inCycle s.snd && s.snd.resend) "TXOLD" (txOldBody en s).outcome
  | none => .refused (.notSelected "TXOLD")

/-- EOT.SEND (R200): the whole of SND.CYCLE when `sendEot == 1`. -/
def execEotSend (s : State) : Host.Outcome State Fault Refusal :=
  onlyWhen (decide (s.snd.phase = .cycle) && s.snd.sendEot) "EOT.SEND" (eotSendBody s).outcome

end Sys2Proof.Machine
end

