-- ==== Sys2Proof/Machine/SenderEot.lean ====
section
/-! DEFINITION. The rows of SND in EOTWAIT (43_sender_eot.md). -/

namespace Sys2Proof.Machine

/-- SND is in phase EOTWAIT. -/
def inEotWait (s : State) : Bool := decide (s.snd.phase = .eotWait)

/-- EOT.EVENT(a) (R201). -/
def execEotEvent (a : Answer) (s : State) : Host.Outcome State Fault Refusal :=
  onlyWhen (inEotWait s) "EOT.EVENT" (eotEventBody a s).outcome

/-- EOT.ACKED(n) (R202). -/
def execEotAcked (f : Body) (s : State) : Host.Outcome State Fault Refusal :=
  onlyWhen (inEotWait s) "EOT.ACKED" (eotAckedBody f.seq s).outcome

/-- EOT.OTHER(n) on an Ack frame (R203). -/
def execEotOtherAck (f : Body) (s : State) : Host.Outcome State Fault Refusal :=
  onlyWhen (inEotWait s) "EOT.OTHER(Ack)" (eotOtherBody f.seq s).outcome

/-- EOT.OTHER(n) on a Data frame (R203). -/
def execEotOtherData (f : Body) (s : State) : Host.Outcome State Fault Refusal :=
  onlyWhen (inEotWait s) "EOT.OTHER(Data)" (eotOtherBody f.seq s).outcome

/-- EOT.OTHER(n) on an Eot frame (R203). -/
def execEotOtherEot (f : Body) (s : State) : Host.Outcome State Fault Refusal :=
  onlyWhen (inEotWait s) "EOT.OTHER(Eot)" (eotOtherBody f.seq s).outcome

/-- EOT.TIMEOUT (R204). -/
def execEotTimeout (s : State) : Host.Outcome State Fault Refusal :=
  onlyWhen (inEotWait s) "EOT.TIMEOUT" (eotTimeoutBody s).outcome

end Sys2Proof.Machine
end

