-- ==== Sys2Proof/Machine/SenderEvents.lean ====
section
/-! DEFINITION. The rows of SND in WAIT (42_sender_events.md). A row inside SND.EVENT is performed in WAIT, before the
`phase <- CYCLE` that ends SND.EVENT (R170). -/

namespace Sys2Proof.Machine

/-- SND is in phase WAIT. -/
def inWait (s : State) : Bool := decide (s.snd.phase = .wait)

/-- SND.EVENT(a) (R170). -/
def execSndEvent (a : Answer) (s : State) : Host.Outcome State Fault Refusal :=
  onlyWhen (inWait s) "SND.EVENT" (sndEventBody a s).outcome

/-- TIMEOUT (R171). -/
def execTimeout (s : State) : Host.Outcome State Fault Refusal :=
  onlyWhen (inWait s) "TIMEOUT" (timeoutBody s).outcome

/-- ACK(n) (R173). -/
def execAckRx (f : Body) (s : State) : Host.Outcome State Fault Refusal :=
  onlyWhen (inWait s) "ACK" (ackBody f.seq s).outcome

/-- ACK.DISCARD (R172): `doNothing == 1`. -/
def execAckDiscard (f : Body) (s : State) : Host.Outcome State Fault Refusal :=
  onlyWhen (inWait s && decide (ackBranch f.seq s.snd = .discard)) "ACK.DISCARD" (ackDiscardBody s).outcome

/-- ACK.CUM (R175): the number is in the window; the count is the scan's (R173). -/
def execAckCum (f : Body) (s : State) : Host.Outcome State Fault Refusal :=
  onlyWhen (inWait s && decide (ackBranch f.seq s.snd = .cum)) "ACK.CUM"
    (ackCumBody ((scanWindow f.seq (window s.snd)).getD 0) s).outcome

/-- ACK.LATE (R174): not in the window and the late-frame test holds. -/
def execAckLate (f : Body) (s : State) : Host.Outcome State Fault Refusal :=
  onlyWhen (inWait s && decide (ackBranch f.seq s.snd = .late)) "ACK.LATE" (ackLateBody s).outcome

/-- ACK.RESYNC (R176): not in the window and the late-frame test false. -/
def execAckResync (f : Body) (s : State) : Host.Outcome State Fault Refusal :=
  onlyWhen (inWait s && decide (ackBranch f.seq s.snd = .resync)) "ACK.RESYNC" (ackResyncBody f.seq s).outcome

/-- RESYNC(n) (R177): inside ACK.RESYNC in WAIT and inside EOT.OTHER in EOTWAIT. -/
def execResync (n : Seq) (s : State) : Host.Outcome State Fault Refusal :=
  onlyWhen (inWait s || decide (s.snd.phase = .eotWait)) "RESYNC" (resyncBody n s).outcome

/-- SND.IGNORE of a Data frame (R178). -/
def execSndIgnoreData (_f : Body) (s : State) : Host.Outcome State Fault Refusal :=
  onlyWhen (inWait s) "SND.IGNORE(Data)" (sndIgnoreBody s).outcome

/-- SND.IGNORE of an EotAck frame (R178). -/
def execSndIgnoreEotAck (_f : Body) (s : State) : Host.Outcome State Fault Refusal :=
  onlyWhen (inWait s) "SND.IGNORE(EotAck)" (sndIgnoreBody s).outcome

/-- SND.IGNORE of an Eot frame (R178). -/
def execSndIgnoreEot (_f : Body) (s : State) : Host.Outcome State Fault Refusal :=
  onlyWhen (inWait s) "SND.IGNORE(Eot)" (sndIgnoreBody s).outcome

end Sys2Proof.Machine
end

