-- ==== Sys2Proof/Machine/System.lean ====
section
/-! DEFINITION. The rows of the host interface (R259): the two starts and RESET. -/

namespace Sys2Proof.Machine

/-- SND.START (R140): `phase <- CYCLE` in IDLE, nothing in any other phase. A Source whose cursor is not at chunk 0 at start is
outside the spec, which tells a model to refuse it (R282(d), RV9; log 13). -/
def execSndStart (s : State) : Host.Outcome State Fault Refusal :=
  if s.snd.phase = .idle then
    if s.src.cursor = 0 then .next (s.setSndPhase .cycle) else .refused .sourceCursor
  else .next s

/-- RCV.START (R220): `phase <- WAIT` in IDLE, nothing in any other phase. -/
def execRcvStart (s : State) : Host.Outcome State Fault Refusal :=
  if s.rcv.phase = .idle then .next (s.setRcvPhase .wait) else .next s

/-- RESET of an instance (R280), in every phase. -/
def execReset (e : Role) (s : State) : Host.Outcome State Fault Refusal :=
  .next (resetEngine e s)

end Sys2Proof.Machine
end

