-- ==== Sys2Proof/Machine/Dispatch.lean ====
section
/-! DEFINITION. One arm per constructor of Instr. -/

namespace Sys2Proof.Machine

def exec (i : Instr) (s : State) : Host.Outcome State Fault Refusal :=
  match i with
  | .ack n => Sys2Proof.Machine.execAck n s
  | .data n len d => Sys2Proof.Machine.execData n len d s
  | .eotAck n => Sys2Proof.Machine.execEotAck n s
  | .eot n => Sys2Proof.Machine.execEot n s
  | .ackRx f => Sys2Proof.Machine.execAckRx f s
  | .ackDiscard f => Sys2Proof.Machine.execAckDiscard f s
  | .ackCum f => Sys2Proof.Machine.execAckCum f s
  | .ackLate f => Sys2Proof.Machine.execAckLate f s
  | .ackResync f => Sys2Proof.Machine.execAckResync f s
  | .sndIgnoreData f => Sys2Proof.Machine.execSndIgnoreData f s
  | .sndIgnoreEotAck f => Sys2Proof.Machine.execSndIgnoreEotAck f s
  | .sndIgnoreEot f => Sys2Proof.Machine.execSndIgnoreEot f s
  | .eotAcked f => Sys2Proof.Machine.execEotAcked f s
  | .eotOtherAck f => Sys2Proof.Machine.execEotOtherAck f s
  | .eotOtherData f => Sys2Proof.Machine.execEotOtherData f s
  | .eotOtherEot f => Sys2Proof.Machine.execEotOtherEot f s
  | .rcvData f => Sys2Proof.Machine.execRcvData f s
  | .rcvEot f => Sys2Proof.Machine.execRcvEot f s
  | .rcvOoo k f => Sys2Proof.Machine.execRcvOoo k f s
  | .rcvIgnoreAck f => Sys2Proof.Machine.execRcvIgnoreAck f s
  | .rcvIgnoreEotAck f => Sys2Proof.Machine.execRcvIgnoreEotAck f s
  | .encode e f => Sys2Proof.Machine.execEncode e f s
  | .decode e b => Sys2Proof.Machine.execDecode e b s
  | .sndStart => Sys2Proof.Machine.execSndStart s
  | .sndCycle => Sys2Proof.Machine.execSndCycle s
  | .fill => Sys2Proof.Machine.execFill s
  | .txNew => Sys2Proof.Machine.execTxNew s
  | .resend => Sys2Proof.Machine.execResend s
  | .txOld j => Sys2Proof.Machine.execTxOld j s
  | .sndEvent a => Sys2Proof.Machine.execSndEvent a s
  | .timeout => Sys2Proof.Machine.execTimeout s
  | .resync n => Sys2Proof.Machine.execResync n s
  | .eotSend => Sys2Proof.Machine.execEotSend s
  | .eotEvent a => Sys2Proof.Machine.execEotEvent a s
  | .eotTimeout => Sys2Proof.Machine.execEotTimeout s
  | .rcvStart => Sys2Proof.Machine.execRcvStart s
  | .rcvEvent a => Sys2Proof.Machine.execRcvEvent a s
  | .rcvTimeout => Sys2Proof.Machine.execRcvTimeout s
  | .reset e => Sys2Proof.Machine.execReset e s

end Sys2Proof.Machine
end

