-- ==== Sys2Proof/Machine/Fetch.lean ====
section
/-! DEFINITION. Which operation the next step performs: the head of the script names the agent that moves, and an engine's
phase selects its operation (R34, R37, R98). Also what a word needs in place so that the operation port runs it. -/

namespace Sys2Proof.Machine

/-- What the head of the script comes to. -/
inductive Fetched where
  /-- this operation, on this state -/
  | perform (i : Instr) (s : State)
  /-- the environment alone has moved, or no agent has -/
  | still (s : State)
  /-- the model has no behaviour -/
  | reject (r : Refusal)
deriving DecidableEq, Repr

/-- SND.EVENT, EOT.EVENT or RCV.EVENT, where the phase of the engine holds a pending `ChRecv()` (R147, R201, R221); in every
other phase the engine makes no call (R98). -/
def eventRow (e : Role) (a : Answer) (s : State) : Option Instr :=
  match e with
  | .sender =>
    match s.snd.phase with
    | .wait => some (.sndEvent a)
    | .eotWait => some (.eotEvent a)
    | .idle => none
    | .cycle => none
    | .done => none
    | .fault => none
  | .receiver =>
    match s.rcv.phase with
    | .wait => some (.rcvEvent a)
    | .idle => none
    | .done => none
    | .fault => none

/-- The datagrams without the one at this place. -/
def dropAt (i : Nat) (l : List Datagram) : List Datagram :=
  l.eraseIdx i

/-- The datagrams with a second copy of the one at this place. -/
def dupAt (i : Nat) (l : List Datagram) : List Datagram :=
  match l[i]? with
  | some b => l ++ [b]
  | none => l

/-- The Channel's answer to a pending receive, and the state after it: a delivered datagram leaves the bag (R70, R71). No
answer when the bag has no datagram at that place: the engine stays blocked. -/
def channelAnswer (e : Role) (c : RecvChoice) (s : State) : Option (Answer × State) :=
  match c with
  | .timeout => some (.timeout, s)
  | .error => some (.error, s)
  | .deliver i =>
    match (s.side e).inbox[i]? with
    | some b => some (.buffer b, s.setSide e { s.side e with inbox := dropAt i (s.side e).inbox })
    | none => none

/-- The Channel answers the engine's `ChRecv()`, an external call like the others: an rst that is due comes first (R280). -/
def fetchAnswer (e : Role) (c : RecvChoice) (s : State) : Fetched :=
  match channelAnswer e c s with
  | none => .still s
  | some (a, t) =>
    match eventRow e a s with
    | none => .still s
    | some i =>
      match (s.side e).rstAt with
      | some 0 => .perform (.reset e) s
      | some (n + 1) => .perform i (t.setSide e { t.side e with rstAt := some n })
      | none => .perform i t

/-- The host's inputs: rst overrides everything, and a start that coincides with it is ignored (R251, R259). -/
def fetchHost (e : Role) (rst start : Bool) (s : State) : Fetched :=
  if rst then .perform (.reset e) s
  else if start then
    match e with
    | .sender => .perform .sndStart s
    | .receiver => .perform .rcvStart s
  else .still s

/-- SND's own next operation (R34): SND.CYCLE in CYCLE, none elsewhere. -/
def fetchRun (s : State) : Fetched :=
  if s.snd.phase = .cycle then .perform .sndCycle s else .still s

/-- No transfer is running: the platform may put a Source in place (R282, RV9). -/
def sourceFree (s : State) : Bool :=
  decide (s.snd.phase = .idle) || decide (s.snd.phase = .done) || decide (s.snd.phase = .fault)

/-- RCV has not started: the platform may put an empty Sink in place (R282(e)). The spec speaks of the Sink only before start
and then lets it grow alone (R77, R228); that it is never replaced later is the model's choice (log 16). -/
def sinkFree (s : State) : Bool :=
  decide (s.rcv.phase = .idle)

/-- One move, already taken from the script. -/
def fetchMove (m : Move) (s : State) : Fetched :=
  match m with
  | .op r bytes =>
    match decodeIn r bytes with
    | .ok i => .perform i s
    | .error err => .reject (.undecodable err)
  | .host e rst start => fetchHost e rst start s
  | .run => fetchRun s
  | .answer e c => fetchAnswer e c s
  | .drop e i => .still (s.setSide e { s.side e with inbox := dropAt i (s.side e).inbox })
  | .dup e i => .still (s.setSide e { s.side e with inbox := dupAt i (s.side e).inbox })
  | .plan e as => .still (s.setSide e { s.side e with answers := (s.side e).answers ++ as })
  | .armRst e n => .still (s.setSide e { s.side e with rstAt := some n })
  | .load chunks flagsLast =>
    if sourceFree s then .still (s.setSrc { chunks := chunks, cursor := 0, flagsLast := flagsLast })
    else .reject .sourceChanged
  | .newSink => if sinkFree s then .still (s.setSink []) else .reject .sinkChanged

/-- The next operation. With no move left no agent moves: the state stays as it is (log 7). -/
def fetch (s : State) : Fetched :=
  match s.script with
  | [] => .still s
  | m :: rest => fetchMove m (s.setScript rest)

/-- What a row needs in place so that the block performs it next: the phase and the flags of the table's context, and for
TXOLD an entry to send (log 14). -/
def armFor (i : Instr) (s : State) : State :=
  match i with
  | .decode .sender _ => s.setSndPhase .wait
  | .decode .receiver _ => s.setRcvPhase .wait
  | .sndCycle => s.setSndPhase .cycle
  | .fill => s.setSnd { s.snd with phase := .cycle, sendEot := false, doNothing := false }
  | .txNew => s.setSnd { s.snd with phase := .cycle, sendEot := false, doNothing := false, srcDone := false }
  | .resend => s.setSnd { s.snd with phase := .cycle, sendEot := false, resend := true }
  | .txOld j =>
    s.setSnd
      { s.snd with
        phase := .cycle
        sendEot := false
        resend := true
        outstanding := j + 1#3
        inFlight := List.replicate (j.toNat + 1) { seq := s.snd.base, off := s.snd.ackedCount } }
  | .sndEvent _ => s.setSndPhase .wait
  | .timeout => s.setSndPhase .wait
  | .resync _ => s.setSndPhase .wait
  | .eotSend => s.setSnd { s.snd with phase := .cycle, sendEot := true }
  | .eotEvent _ => s.setSndPhase .eotWait
  | .eotTimeout => s.setSndPhase .eotWait
  | .rcvEvent _ => s.setRcvPhase .wait
  | .rcvTimeout => s.setRcvPhase .wait
  | .ack _ => s
  | .data _ _ _ => s
  | .eotAck _ => s
  | .eot _ => s
  | .ackRx _ => s
  | .ackDiscard _ => s
  | .ackCum _ => s
  | .ackLate _ => s
  | .ackResync _ => s
  | .sndIgnoreData _ => s
  | .sndIgnoreEotAck _ => s
  | .sndIgnoreEot _ => s
  | .eotAcked _ => s
  | .eotOtherAck _ => s
  | .eotOtherData _ => s
  | .eotOtherEot _ => s
  | .rcvData _ => s
  | .rcvEot _ => s
  | .rcvOoo _ _ => s
  | .rcvIgnoreAck _ => s
  | .rcvIgnoreEotAck _ => s
  | .encode _ _ => s
  | .sndStart => s
  | .rcvStart => s
  | .reset _ => s

/-- These bytes are the next operation: at the head of the script, with what their row needs in place. -/
def placeWord (bytes : List Byte) (s : State) : State :=
  match decode bytes with
  | .ok i => (armFor i s).setScript (.op .codec bytes :: s.script)
  | .error _ => s.setScript (.op .codec bytes :: s.script)

end Sys2Proof.Machine
end

