-- ==== Sys2Proof/Machine/Step.lean ====
section
/-! DEFINITION. One step of the link (R13): the head of the script is taken, and the operation it comes to is performed. -/

namespace Sys2Proof.Machine

/-- One step: one firing of one operation rule by one agent, or one move of the environment. -/
def step (s : State) : Host.Outcome State Fault Refusal :=
  match fetch s with
  | .perform i t => exec i t
  | .still t => .next t
  | .reject r => .refused r

/-- `s` with the instruction of a table word placed at the operation port (log 12, log 14). -/
def State.withFetchWord (s : State) (nbits w : Nat) : State :=
  placeWord (tableBytes nbits w) s

end Sys2Proof.Machine
end

