-- ==== Sys2Proof/Safety.lean ====
section
/-! DEFINITION. What the rules promise of every state between two steps, in the terms the statements use: the window and counter
invariants (R27, R28), the flags' invariant (R31, R171, R200, R292), the faults' bookkeeping (R35, R240, R260), and what no
step touches. -/

namespace Sys2Proof.Machine

/-- The window invariants R27(a), (b) and (c). -/
structure WindowInv (sn : Sender) : Prop where
  /-- R27(a): `outstanding == |inFlight|` -/
  count : sn.outstanding.toNat = sn.inFlight.length
  /-- R27(b): `nextSeq == (base + outstanding) mod 8` -/
  next : sn.nextSeq = sn.base + sn.outstanding
  /-- R27(c): `inFlight[i].seq == (base + i) mod 8` -/
  seqs : ∀ i en, sn.inFlight[i]? = some en → en.seq = sn.base + BitVec.ofNat 3 i

/-- The counter invariants R28(a) and (b), in unbounded numbers. -/
structure CounterInv (sn : Sender) : Prop where
  /-- R28(a): `sentCount - ackedCount == outstanding` -/
  diff : sn.sentCount.toNat = sn.ackedCount.toNat + sn.outstanding.toNat
  /-- R28(b): `inFlight[i].off == ackedCount + i` -/
  offs : ∀ i en, sn.inFlight[i]? = some en → en.off.toNat = sn.ackedCount.toNat + i

/-- A transfer is running at SND: it has started and has neither ended nor faulted. -/
def running (sn : Sender) : Bool :=
  decide (sn.phase = .cycle) || decide (sn.phase = .wait) || decide (sn.phase = .eotWait)

/-- R28(c): the Source cursor equals `sentCount` while a transfer runs. -/
def CursorInv (s : State) : Prop :=
  running s.snd = true → s.src.cursor = s.snd.sentCount.toNat

/-- The next move does not run a row alone at the operation port. The flags' invariant and the cursor's are about the block's
own operations, not about parts of them run alone (log 12). -/
def portQuiet (s : State) : Prop :=
  ∀ r bytes, s.script.head? ≠ some (.op r bytes)

/-- The stored flags phase by phase: what R31, R32, R141, R171, R200, R201 and R292 say of them together. -/
structure FlagInv (sn : Sender) : Prop where
  /-- before start the flags are as rst leaves them (R40) -/
  atIdle : sn.phase = .idle → sn = senderReset
  /-- a requested retransmission finds something to send and nothing left to fill (R31, R171, R292) -/
  atResend : sn.phase = .cycle → sn.resend = true →
    sn.outstanding ≠ 0#3 ∧ sn.doNothing = false ∧ (isFull sn = true ∨ sn.srcDone = true)
  /-- a requested handshake has an empty window and an exhausted Source (R171, R200) -/
  atSendEot : sn.phase = .cycle → sn.sendEot = true →
    sn.outstanding = 0#3 ∧ sn.doNothing = false ∧ sn.srcDone = true ∧ sn.resend = false
  /-- in WAIT nothing is requested, and unless sending is suppressed the window is full or the Source exhausted (R31, R292) -/
  atWait : sn.phase = .wait →
    sn.resend = false ∧ sn.sendEot = false ∧ (sn.doNothing = false → isFull sn = true ∨ sn.srcDone = true)
  /-- in EOTWAIT the window is empty and the request stands (R31, R32, R200, R201) -/
  atEotWait : sn.phase = .eotWait →
    sn.outstanding = 0#3 ∧ sn.doNothing = false ∧ sn.srcDone = true ∧ sn.sendEot = true ∧ sn.resend = false
  /-- sending is suppressed only with an empty window and a rewound Source (R171, R177) -/
  atDoNothing : running sn = true → sn.doNothing = true → sn.outstanding = 0#3 ∧ sn.srcDone = false

/-- The status outputs (R35, R240, R260): `cause` is non-zero exactly in FAULT, and its codes are 1 to 8. -/
def CauseInv (s : State) : Prop :=
  (s.snd.cause ≠ 0#4 ↔ s.snd.phase = .fault) ∧ s.snd.cause.toNat ≤ 8 ∧
  (s.rcv.cause ≠ 0#4 ↔ s.rcv.phase = .fault) ∧ s.rcv.cause.toNat ≤ 8

/-- The frame buffers keep their canonical form (R60; log 2). -/
def MemInv (s : State) : Prop :=
  Memory.wf s.sndSide.fb = true ∧ Memory.wf s.rcvSide.fb = true

/-- What holds of every state between two steps, whatever is run (R27, R28(a) and (b), R35, R60). -/
structure LinkInv (s : State) : Prop where
  window : WindowInv s.snd
  counters : CounterInv s.snd
  causes : CauseInv s
  memories : MemInv s

/-- What the block's own operations keep besides (R28(c), R31, R200, R292). -/
structure ProtocolInv (s : State) : Prop where
  link : LinkInv s
  cursor : CursorInv s
  flags : FlagInv s.snd

/-- A frame buffer holds these 33 bytes; past them it reads as `old` does (R60, R120). -/
def fbHolds (m : Memory) (bytes : List Byte) (old : Memory) : Prop :=
  (∀ a, a < 33 → memGet m a = bytes.getD a 0#8) ∧ ∀ a, 33 ≤ a → memGet m a = memGet old a

/-- `s` after ENCODE(f) in an instance: its frame buffer holds the frame's bytes, nothing else has changed (R120). -/
def encoded (e : Role) (f : Frame) (s : State) : State :=
  s.setSide e { s.side e with fb := memSetAll (s.side e).fb 0 (encodeFrame f) }

/-- `s` after ChSend(ENCODE(f)) answered ok and the Channel took the datagram (R69, R71). -/
def sent (e : Role) (f : Frame) (s : State) : State :=
  (encoded e f s).setSide (peer e)
    { (encoded e f s).side (peer e) with inbox := ((encoded e f s).side (peer e)).inbox ++ [encodeFrame f] }

/-- The Channel answers ok to the next send of an instance: no answer is planned, or one that is not Error (R69; log 5). -/
def sendOk (e : Role) (s : State) : Prop :=
  ∀ kept, (s.side e).answers.head? ≠ some (.error kept)

/-- `encoded e f s` with a planned answer spent, if there was one (log 5). -/
def answered (e : Role) (f : Frame) (s : State) : State :=
  (encoded e f s).setSide e { (encoded e f s).side e with answers := (s.side e).answers.tail }

/-- `s` after ChSend(ENCODE(f)) answered ok: FB holds the frame, and the datagram is in the bag unless the Channel loses it
(R69, R71). -/
def passed (e : Role) (f : Frame) (s : State) : State :=
  (answered e f s).setSide (peer e)
    { (answered e f s).side (peer e) with
      inbox := ((answered e f s).side (peer e)).inbox ++
        (if (s.side e).answers.head? = some .lost then [] else [encodeFrame f]) }

/-- `s` after ChSend(ENCODE(f)) answered Error and the engine took CHANNEL_SEND, `rest` being the answers still planned (R69,
R244, R252). Whether the datagram is in the bag all the same, `kept`, the spec leaves open and so does the model (log 5). -/
def sendFailed (e : Role) (f : Frame) (kept : Bool) (rest : List SendAnswer) (s : State) : State :=
  takeFault e .channelSend
    (((encoded e f s).setSide e { (encoded e f s).side e with answers := rest }).setSide (peer e)
      { s.side (peer e) with
        inbox := (s.side (peer e)).inbox ++ if kept then [encodeFrame f] else [] })

/-- An instance's engine has stopped for good: DONE or FAULT (R34, R37, S1, S2). -/
def stopped (e : Role) (s : State) : Bool :=
  match e with
  | .sender => decide (s.snd.phase = .done) || decide (s.snd.phase = .fault)
  | .receiver => decide (s.rcv.phase = .done) || decide (s.rcv.phase = .fault)

/-- The host asserts rst in an instance after this many more of its external calls (R280; log 6). -/
def rstDue (e : Role) (k : Nat) (s : State) : Prop :=
  (s.side e).rstAt = some k

/-- The registers of an instance's engine are at their reset values (R40). -/
def atReset (e : Role) (s : State) : Prop :=
  match e with
  | .sender => s.snd = senderReset
  | .receiver => s.rcv = receiverReset

/-- `s` with another rst counter of an instance: all that an external call does before the call itself (log 6). -/
def counted (e : Role) (r : Option Nat) (s : State) : State :=
  s.setSide e { s.side e with rstAt := r }

/-- The host asserts no rst during the next operation of an instance (R280; log 6). -/
def noRst (e : Role) (s : State) : Prop :=
  (s.side e).rstAt = none

/-- The Channel takes every send of an instance, so far as the outside world has decided (R69; log 5). -/
def sendsOk (e : Role) (s : State) : Prop :=
  (s.side e).answers = []

/-- Nothing the outside world has decided disturbs the calls of an instance: no rst is due and no send answer is planned. -/
def undisturbed (e : Role) (s : State) : Prop :=
  noRst e s ∧ sendsOk e s

/-- The Source keeps its contract: every chunk has 1 to 30 bytes (R66, R67). -/
def SourceOk (s : State) : Prop :=
  ∀ d ∈ s.src.chunks, 1 ≤ d.length ∧ d.length ≤ 30

/-- The frame SND sends for a chunk under a sequence number (R123, R144, R146). -/
def chunkFrame (n : Seq) (d : List Byte) : Frame :=
  frameData n (BitVec.ofNat 5 d.length) d

/-- Chunk k of the Source, empty past its end (R66). -/
def chunkAt (s : State) (k : Nat) : List Byte :=
  s.src.chunks.getD k []

/-- How many chunks FILL transmits: as many as the window has room for and the Source still holds (R143). -/
def fillCount (s : State) : Nat :=
  min (Config.windowSize - s.snd.outstanding.toNat) (s.src.chunks.length - s.src.cursor)

/-- The engine that performs a row (R98, R99): a constructor belongs to the instance that sends frames of its kind. -/
def engineOf : Instr → Role
  | .ack _ => .receiver
  | .data _ _ _ => .sender
  | .eotAck _ => .receiver
  | .eot _ => .sender
  | .ackRx _ => .sender
  | .ackDiscard _ => .sender
  | .ackCum _ => .sender
  | .ackLate _ => .sender
  | .ackResync _ => .sender
  | .sndIgnoreData _ => .sender
  | .sndIgnoreEotAck _ => .sender
  | .sndIgnoreEot _ => .sender
  | .eotAcked _ => .sender
  | .eotOtherAck _ => .sender
  | .eotOtherData _ => .sender
  | .eotOtherEot _ => .sender
  | .rcvData _ => .receiver
  | .rcvEot _ => .receiver
  | .rcvOoo _ _ => .receiver
  | .rcvIgnoreAck _ => .receiver
  | .rcvIgnoreEotAck _ => .receiver
  | .encode e _ => e
  | .decode e _ => e
  | .sndStart => .sender
  | .sndCycle => .sender
  | .fill => .sender
  | .txNew => .sender
  | .resend => .sender
  | .txOld _ => .sender
  | .sndEvent _ => .sender
  | .timeout => .sender
  | .resync _ => .sender
  | .eotSend => .sender
  | .eotEvent _ => .sender
  | .eotTimeout => .sender
  | .rcvStart => .receiver
  | .rcvEvent _ => .receiver
  | .rcvTimeout => .receiver
  | .reset e => e

/-- The table's context and condition of a row hold, so that the block can be about to perform it (R98, R99, and each row's
rule). The constructors and ENCODE are the CODEC's, which has no phase; the starts and RESET are the host's, in every phase. -/
def inContext (i : Instr) (s : State) : Prop :=
  match i with
  | .ack _ => True
  | .data _ _ _ => True
  | .eotAck _ => True
  | .eot _ => True
  | .ackRx _ => s.snd.phase = .wait
  | .ackDiscard f => s.snd.phase = .wait ∧ ackBranch f.seq s.snd = .discard
  | .ackCum f => s.snd.phase = .wait ∧ ackBranch f.seq s.snd = .cum
  | .ackLate f => s.snd.phase = .wait ∧ ackBranch f.seq s.snd = .late
  | .ackResync f => s.snd.phase = .wait ∧ ackBranch f.seq s.snd = .resync
  | .sndIgnoreData _ => s.snd.phase = .wait
  | .sndIgnoreEotAck _ => s.snd.phase = .wait
  | .sndIgnoreEot _ => s.snd.phase = .wait
  | .eotAcked _ => s.snd.phase = .eotWait
  | .eotOtherAck _ => s.snd.phase = .eotWait
  | .eotOtherData _ => s.snd.phase = .eotWait
  | .eotOtherEot _ => s.snd.phase = .eotWait
  | .rcvData f => s.rcv.phase = .wait ∧ f.seq = s.rcv.expectedSeq
  | .rcvEot f => s.rcv.phase = .wait ∧ f.seq = s.rcv.expectedSeq
  | .rcvOoo _ f => s.rcv.phase = .wait ∧ f.seq ≠ s.rcv.expectedSeq
  | .rcvIgnoreAck f => s.rcv.phase = .wait ∧ f.seq = s.rcv.expectedSeq
  | .rcvIgnoreEotAck f => s.rcv.phase = .wait ∧ f.seq = s.rcv.expectedSeq
  | .encode _ _ => True
  | .decode .sender _ => s.snd.phase = .wait ∨ s.snd.phase = .eotWait
  | .decode .receiver _ => s.rcv.phase = .wait
  | .sndStart => True
  | .sndCycle => s.snd.phase = .cycle
  | .fill => s.snd.phase = .cycle ∧ s.snd.sendEot = false ∧ s.snd.doNothing = false
  | .txNew => s.snd.phase = .cycle ∧ s.snd.sendEot = false ∧ s.snd.doNothing = false ∧ s.snd.outstanding ≠ 7#3 ∧
      s.snd.srcDone = false
  | .resend => s.snd.phase = .cycle ∧ s.snd.sendEot = false ∧ s.snd.resend = true
  | .txOld j => s.snd.phase = .cycle ∧ s.snd.sendEot = false ∧ s.snd.resend = true ∧ j.toNat < (window s.snd).length
  | .sndEvent _ => s.snd.phase = .wait
  | .timeout => s.snd.phase = .wait
  | .resync _ => s.snd.phase = .wait ∨ s.snd.phase = .eotWait
  | .eotSend => s.snd.phase = .cycle ∧ s.snd.sendEot = true
  | .eotEvent _ => s.snd.phase = .eotWait
  | .eotTimeout => s.snd.phase = .eotWait
  | .rcvStart => True
  | .rcvEvent _ => s.rcv.phase = .wait
  | .rcvTimeout => s.rcv.phase = .wait
  | .reset _ => True

/-- SND's registers may go from the first to the second in one step, so far as the phase tells: by a step that leaves the phase
as it is, by the last column of R34's table, or by an rst, the one way back to IDLE, with every register at its reset value
(R280). -/
def sndMayMove (x y : Sender) : Prop :=
  y = senderReset ∨ y.phase = x.phase ∨
  match x.phase with
  | .idle => y.phase = .cycle
  | .cycle => y.phase = .wait ∨ y.phase = .eotWait ∨ y.phase = .fault
  | .wait => y.phase = .cycle ∨ y.phase = .fault
  | .eotWait => y.phase = .cycle ∨ y.phase = .done ∨ y.phase = .fault
  | .done => False
  | .fault => False

/-- The same for RCV (R37, R220 to R227). -/
def rcvMayMove (x y : Receiver) : Prop :=
  y = receiverReset ∨ y.phase = x.phase ∨
  match x.phase with
  | .idle => y.phase = .wait
  | .wait => y.phase = .done ∨ y.phase = .fault
  | .done => False
  | .fault => False

/-- The next step takes the Data frame `f` to RCV: the Channel delivers a datagram of RCV's bag that DECODE reads as it (R70,
R221), or the operation port holds RCV.DATA of it or RCV.EVENT of a buffer that DECODE reads as it (log 12). -/
def takesData (s : State) (f : Body) : Prop :=
  (∃ i b g, s.script.head? = some (.answer .receiver (.deliver i)) ∧ s.rcvSide.inbox[i]? = some b ∧
    decodeFrame b = .ok g ∧ g.kind = .data ∧ f = frameBody g) ∨
  ∃ r bytes, s.script.head? = some (.op r bytes) ∧
    (decodeIn r bytes = .ok (.rcvData f) ∨
      ∃ b g, decodeIn r bytes = .ok (.rcvEvent (.buffer b)) ∧ decodeFrame b = .ok g ∧ g.kind = .data ∧ f = frameBody g)

/-- Two states look the same to the SENDER instance: its registers, its side, the Source and its RESYNC_ADJ are equal. -/
def sameForSender (s t : State) : Prop :=
  s.snd = t.snd ∧ s.sndSide = t.sndSide ∧ s.src = t.src ∧ s.adj = t.adj

/-- Two states look the same to the RECEIVER instance: its registers, its side and the Sink are equal. -/
def sameForReceiver (s t : State) : Prop :=
  s.rcv = t.rcv ∧ s.rcvSide = t.rcvSide ∧ s.sink = t.sink

/-- The numbering of R149: the next frame's number is the next chunk's index modulo 8. -/
def NumberingInv (sn : Sender) : Prop :=
  sn.nextSeq = sentMod8 sn

end Sys2Proof.Machine
end

