-- ==== Sys2Proof/Certificates/Slice0/Obligations.lean ====
section
/-! DEFINITION. The statements for the provers. Each docstring names the rules it formalises. -/

open Sys2Proof Sys2Proof.Machine

/-! ### Encoding -/

/-- R122: the round trip is lossless, and a longer buffer is cut to its first 33 bytes. -/
def Obligations.CodecRoundTripIsLossless : Prop :=
  (∀ f : Frame, frameWf f = true → decodeFrame (encodeFrame f) = .ok f) ∧
  (∀ (b : Datagram) (f : Frame), b.length = 33 → decodeFrame b = .ok f → encodeFrame f = b) ∧
  (∀ (b : Datagram) (f : Frame), 33 < b.length → decodeFrame b = .ok f → encodeFrame f = b.take 33)

/-- Every row of the table: the words of a well-formed instruction, read by a reader for whom they mean it, are that
instruction (R91, R98, R99; the operand layout of the LOCAL rows is the model's own, log 10). -/
def Obligations.DecodeReadsBackEveryInstruction : Prop :=
  ∀ (i : Instr) (r : Reader), instrWf i = true → readBy i r = true → decodeIn r (encode i) = .ok i

/-- Whatever the decoder answers is well formed: every operand is in its range (R97, R120; log 10). -/
def Obligations.DecodedInstructionsAreWellFormed : Prop :=
  ∀ (r : Reader) (b : List Byte) (i : Instr), decodeIn r b = .ok i → instrWf i = true

/-- Words written out from R91 and R99, with the bytes of vectors V3 to V5. -/
def Obligations.WrittenWordsDecode : Prop :=
  decode (0x02#8 :: 0x03#8 :: zeros 31) = .ok (.eotAck 3#3) ∧
  decode (0x03#8 :: 0x03#8 :: zeros 31) = .ok (.eot 3#3) ∧
  decode (0x01#8 :: 0x02#8 :: 0x03#8 :: 0x41#8 :: 0x42#8 :: 0x43#8 :: zeros 27) =
    .ok (.data 2#3 3#5 [0x41#8, 0x42#8, 0x43#8]) ∧
  decode [0x23#8] = .ok .txNew ∧ decode [0x28#8, 0x05#8] = .ok (.resync 5#3)

/-- R121: DECODE by the engine that received the buffer, its tests in their order, each with its fault. R121 gives the result
no register: that the frame stands in the field `decoded` afterwards is the model's choice (log 4). -/
def Obligations.DecodeTestsTheBufferInOrder : Prop :=
  ∀ (e : Role) (b : Datagram) (s : State), receiving e s = true →
    (b.length < 33 → exec (.decode e b) s = .next (takeFault e .malformedShort s)) ∧
    (33 ≤ b.length → (3 < (b.getD 0 0#8).toNat ∨ 7 < (b.getD 1 0#8).toNat ∨ 30 < (b.getD 2 0#8).toNat) →
      exec (.decode e b) s = .next (takeFault e .malformedField s)) ∧
    (33 ≤ b.length → (b.getD 0 0#8).toNat ≤ 3 → (b.getD 1 0#8).toNat ≤ 7 → (b.getD 2 0#8).toNat ≤ 30 →
      ∃ f : Frame, frameWf f = true ∧ kindCode f.kind = b.getD 0 0#8 ∧ f.seq.toNat = (b.getD 1 0#8).toNat ∧
        f.len.toNat = (b.getD 2 0#8).toNat ∧ f.payload = (b.drop 3).take 30 ∧
        exec (.decode e b) s = .next (s.setSide e { s.side e with decoded := f }))

/-- R120: ENCODE of a valid frame answers a next state whose frame buffer reads as kind, seqNum, length and payload in offset
order, with nothing else changed; an invalid frame is refused as ill formed (RV6). -/
def Obligations.EncodeFillsTheFrameBuffer : Prop :=
  ∀ (e : Role) (f : Frame) (s : State),
    (frameWf f = true →
      ∃ m : Memory, exec (.encode e f) s = .next (s.setSide e { s.side e with fb := m }) ∧
        memGet m 0 = kindCode f.kind ∧ memGet m 1 = f.seq.setWidth 8 ∧ memGet m 2 = f.len.setWidth 8 ∧
        (∀ j, j < 30 → memGet m (3 + j) = f.payload.getD j 0#8) ∧
        (∀ a, 33 ≤ a → memGet m a = memGet (s.side e).fb a)) ∧
    (frameWf f = false → exec (.encode e f) s = .refused (.illFormed "ENCODE"))

/-- The four constructors answer a next state: the frame buffer of the instance that sends such frames holds the 33 bytes, and
nothing else has changed (R101, R120, R123, R124). Data whose length field or bytes are outside the rule's ranges is refused
(R123, RV6). Whose frame buffer a constructor run alone fills is the model's choice (log 1). -/
def Obligations.ConstructorsFillTheFrameBuffer : Prop :=
  ∀ (s : State) (n : Seq),
    (∃ m, exec (.ack n) s = .next (s.setSide .receiver { s.rcvSide with fb := m }) ∧
      fbHolds m (0x00#8 :: n.setWidth 8 :: zeros 31) s.rcvSide.fb) ∧
    (∃ m, exec (.eotAck n) s = .next (s.setSide .receiver { s.rcvSide with fb := m }) ∧
      fbHolds m (0x02#8 :: n.setWidth 8 :: zeros 31) s.rcvSide.fb) ∧
    (∃ m, exec (.eot n) s = .next (s.setSide .sender { s.sndSide with fb := m }) ∧
      fbHolds m (0x03#8 :: n.setWidth 8 :: zeros 31) s.sndSide.fb) ∧
    (∀ (len : Len) (d : List Byte), len.toNat ≤ 30 → d.length = len.toNat →
      ∃ m, exec (.data n len d) s = .next (s.setSide .sender { s.sndSide with fb := m }) ∧
        fbHolds m (0x01#8 :: n.setWidth 8 :: len.setWidth 8 :: (d ++ zeros (30 - len.toNat))) s.sndSide.fb) ∧
    ∀ (len : Len) (d : List Byte), 30 < len.toNat ∨ d.length ≠ len.toNat →
      exec (.data n len d) s = .refused (.illFormed "Data")

/-! ### The frame buffer's memory -/

/-- MemRead and MemWrite are defined only inside the 33 bytes, and a write read back gives its bytes and leaves every other
offset alone (00_scope.md section 6, R60). -/
def Obligations.FrameBufferReadsWhatWasWritten : Prop :=
  ∀ (m : Memory) (a : Nat) (v : List Byte),
    (33 < a + v.length → memWrite m a v = .error .fbRange) ∧
    (∀ n, 33 < a + n → memRead m a n = .error .fbRange) ∧
    (a + v.length ≤ 33 → ∃ m', memWrite m a v = .ok m' ∧ memRead m' a v.length = .ok v ∧
      (∀ b, b < a ∨ a + v.length ≤ b → memGet m' b = memGet m b) ∧ (Memory.wf m = true → Memory.wf m' = true))

/-! ### The step -/

/-- A step performs the instruction the decoder reads at the operation port, on the state whose script has lost that move
(log 12). -/
def Obligations.StepPerformsTheDecodedOperation : Prop :=
  ∀ (s : State) (r : Reader) (bytes : List Byte) (rest : List Move) (i : Instr),
    s.script = .op r bytes :: rest → decodeIn r bytes = .ok i → step s = exec i (s.setScript rest)

/-- R70, R98, R147, R227: the Channel's answer starts the event of the phase, and a delivered datagram leaves the bag; in every
other phase an engine takes no answer and interprets no frame. -/
def Obligations.AnswerStartsTheEventOfThePhase : Prop :=
  (∀ (s : State) (rest : List Move) (e : Role) (c : RecvChoice) (a : Answer) (left : List Datagram),
    s.script = .answer e c :: rest → noRst e s →
    ((∃ i b, c = .deliver i ∧ (s.side e).inbox[i]? = some b ∧ a = .buffer b ∧ left = (s.side e).inbox.eraseIdx i) ∨
      (c = .timeout ∧ a = .timeout ∧ left = (s.side e).inbox) ∨ (c = .error ∧ a = .error ∧ left = (s.side e).inbox)) →
    (e = .sender → s.snd.phase = .wait →
      step s = exec (.sndEvent a) ((s.setScript rest).setSide e { s.side e with inbox := left })) ∧
    (e = .sender → s.snd.phase = .eotWait →
      step s = exec (.eotEvent a) ((s.setScript rest).setSide e { s.side e with inbox := left })) ∧
    (e = .receiver → s.rcv.phase = .wait →
      step s = exec (.rcvEvent a) ((s.setScript rest).setSide e { s.side e with inbox := left }))) ∧
  (∀ (s : State) (rest : List Move) (e : Role) (c : RecvChoice), s.script = .answer e c :: rest →
    ((e = .sender ∧ s.snd.phase ≠ .wait ∧ s.snd.phase ≠ .eotWait) ∨ (e = .receiver ∧ s.rcv.phase ≠ .wait)) →
    step s = .next (s.setScript rest))

/-- R34, R251, R259: an rst overrides a start; a start alone is the engine's START; neither leaves the link as it is. SND's own
next operation is SND.CYCLE in CYCLE, and none in any other phase. -/
def Obligations.HostInputsReachTheEngines : Prop :=
  (∀ (s : State) (rest : List Move) (e : Role) (rst start : Bool), s.script = .host e rst start :: rest →
    (rst = true → step s = exec (.reset e) (s.setScript rest)) ∧
    (rst = false → start = true → e = .sender → step s = exec .sndStart (s.setScript rest)) ∧
    (rst = false → start = true → e = .receiver → step s = exec .rcvStart (s.setScript rest)) ∧
    (rst = false → start = false → step s = .next (s.setScript rest))) ∧
  (∀ (s : State) (rest : List Move), s.script = .run :: rest →
    (s.snd.phase = .cycle → step s = exec .sndCycle (s.setScript rest)) ∧
    (s.snd.phase ≠ .cycle → step s = .next (s.setScript rest)))

/-- R66, R71, R77, R282: the moves of the environment change the bag, the Source or the Sink they name and nothing else; a Source
put in place during a transfer is refused (RV9). Which phases that is, a load being taken in IDLE, DONE and FAULT and refused in
CYCLE, WAIT and EOTWAIT, is the model's choice (log 13); so is the refusal of a Sink put in place after RCV's start (log 16). The
send answers and the rst counter are the model's own (log 5, log 6), and so is that an empty script leaves the state (log 7). -/
def Obligations.EnvironmentMovesTouchOnlyTheirPart : Prop :=
  ∀ (s : State) (rest : List Move) (e : Role),
    (∀ i, s.script = .drop e i :: rest →
      step s = .next ((s.setScript rest).setSide e { s.side e with inbox := (s.side e).inbox.eraseIdx i })) ∧
    (∀ i b, s.script = .dup e i :: rest → (s.side e).inbox[i]? = some b →
      step s = .next ((s.setScript rest).setSide e { s.side e with inbox := (s.side e).inbox ++ [b] })) ∧
    (∀ i, s.script = .dup e i :: rest → (s.side e).inbox[i]? = none → step s = .next (s.setScript rest)) ∧
    (∀ as, s.script = .plan e as :: rest →
      step s = .next ((s.setScript rest).setSide e { s.side e with answers := (s.side e).answers ++ as })) ∧
    (∀ n, s.script = .armRst e n :: rest →
      step s = .next ((s.setScript rest).setSide e { s.side e with rstAt := some n })) ∧
    (∀ chunks fl, s.script = .load chunks fl :: rest → running s.snd = false →
      step s = .next { s.setScript rest with src := { chunks := chunks, cursor := 0, flagsLast := fl } }) ∧
    (∀ chunks fl, s.script = .load chunks fl :: rest → running s.snd = true → step s = .refused .sourceChanged) ∧
    (s.script = .newSink :: rest → s.rcv.phase = .idle → step s = .next { s.setScript rest with sink := [] }) ∧
    (s.script = .newSink :: rest → s.rcv.phase ≠ .idle → step s = .refused .sinkChanged) ∧
    (s.script = [] → step s = .next s)

/-- R121, R252, RV9: no step of the link stops with a fault of the model's own, the block's faults being next states; and the
block's own steps are refused only where the spec tells a model to refuse, for a start of SND in IDLE with the Source's cursor off
chunk 0 or a Source put in place during a transfer (which phases that is, log 13), or for a Sink put in place after RCV's start
(the model's choice, log 16). -/
def Obligations.OwnStepsNeverStop : Prop :=
  (∀ (s : State) (f : Machine.Fault), step s ≠ .fault f) ∧
  (∀ (s : State) (r : Refusal), portQuiet s → step s = .refused r →
    (r = .sourceCursor ∧ s.snd.phase = .idle ∧ s.src.cursor ≠ 0 ∧ s.script.head? = some (.host .sender false true)) ∨
    (r = .sourceChanged ∧ running s.snd = true ∧ ∃ chunks fl, s.script.head? = some (.load chunks fl)) ∨
    (r = .sinkChanged ∧ s.rcv.phase ≠ .idle ∧ s.script.head? = some .newSink))

/-- R98, R99: a row run where the table's context or condition for it does not hold is refused as not selected, and where they
hold it never is. That such a row can be run at all is the model's choice (log 12). -/
def Obligations.RowsOutsideTheirContextAreRefused : Prop :=
  ∀ (i : Instr) (s : State), (∃ m, exec i s = .refused (.notSelected m)) ↔ ¬ inContext i s

/-- R98: the rows of the operation map. An event on a legal frame performs the row its reader decodes, on the state that holds
the decoded frame; SND.EVENT then writes CYCLE unless the row ended in a fault or an rst. -/
def Obligations.EventsPerformTheRowOfTheMap : Prop :=
  ∀ (s : State) (b : Datagram) (f : Frame), decodeFrame b = .ok f →
    (∀ (i : Instr) (t : State), s.snd.phase = .wait → decodeIn .sndWait b = .ok i →
      exec i (s.setSide .sender { s.sndSide with decoded := f }) = .next t →
      exec (.sndEvent (.buffer b)) s = .next (if t.snd.phase = .wait then t.setSndPhase .cycle else t)) ∧
    (∀ i : Instr, s.snd.phase = .eotWait → decodeIn .sndEotWait b = .ok i →
      exec (.eotEvent (.buffer b)) s = exec i (s.setSide .sender { s.sndSide with decoded := f })) ∧
    (∀ i : Instr, s.rcv.phase = .wait → decodeIn (.rcvWait s.rcv.expectedSeq) b = .ok i →
      exec (.rcvEvent (.buffer b)) s = exec i (s.setSide .receiver { s.rcvSide with decoded := f }))

/-! ### Faults and reset -/

/-- R240, R252: the codes of the eight causes, and what taking a fault changes. -/
def Obligations.TakingAFaultWritesCauseAndPhase : Prop :=
  (∀ (c : FaultCode) (s : State),
    takeFault .sender c s = { s with snd := { s.snd with cause := faultCode c, phase := .fault } } ∧
    takeFault .receiver c s = { s with rcv := { s.rcv with cause := faultCode c, phase := .fault } }) ∧
  faultCode .malformedShort = 1#4 ∧ faultCode .malformedField = 2#4 ∧ faultCode .sourceZero = 3#4 ∧
  faultCode .channelSend = 4#4 ∧ faultCode .channelRecv = 5#4 ∧ faultCode .resyncUnderflow = 6#4 ∧
  faultCode .counterOverflow = 7#4 ∧ faultCode .sourceProto = 8#4

/-- R241, R242, R245, R252: a receive that answers Error, and a buffer that DECODE rejects, are faults of the engine that waits,
and nothing else changes. -/
def Obligations.BadAnswersAreFaults : Prop :=
  ∀ (s : State) (a : Answer) (code : CauseCode),
    ((a = .error ∧ code = 5#4) ∨ (∃ b, a = .buffer b ∧ b.length < 33 ∧ code = 1#4) ∨
      (∃ b, a = .buffer b ∧ 33 ≤ b.length ∧
        (3 < (b.getD 0 0#8).toNat ∨ 7 < (b.getD 1 0#8).toNat ∨ 30 < (b.getD 2 0#8).toNat) ∧ code = 2#4)) →
    (s.snd.phase = .wait → exec (.sndEvent a) s = .next { s with snd := { s.snd with cause := code, phase := .fault } }) ∧
    (s.snd.phase = .eotWait → exec (.eotEvent a) s = .next { s with snd := { s.snd with cause := code, phase := .fault } }) ∧
    (s.rcv.phase = .wait → exec (.rcvEvent a) s = .next { s with rcv := { s.rcv with cause := code, phase := .fault } })

/-- R280, R281: RESET puts every register of the instance at its reset value, in every state, and touches nothing of the
environment. That the pending rst is spent (log 6) and that the frame buffer and `decoded` stay as they are (log 15) is the
model's choice. -/
def Obligations.ResetPutsTheRegistersAtZero : Prop :=
  ∀ s : State,
    exec (.reset .sender) s = .next { s with
      snd := { phase := .idle, base := 0#3, nextSeq := 0#3, outstanding := 0#3, sentCount := 0#32, ackedCount := 0#32,
               inFlight := [], doNothing := false, resend := false, sendEot := false, srcDone := false, cause := 0#4 }
      sndSide := { s.sndSide with rstAt := none } } ∧
    exec (.reset .receiver) s = .next { s with
      rcv := { phase := .idle, expectedSeq := 0#3, cause := 0#4 }
      rcvSide := { s.rcvSide with rstAt := none } }

/-- R40, R66, R77: what the reset state holds. -/
def Obligations.ResetStateIsTheSpecs : Prop :=
  State.reset.snd = { phase := .idle, base := 0#3, nextSeq := 0#3, outstanding := 0#3, sentCount := 0#32, ackedCount := 0#32,
                      inFlight := [], doNothing := false, resend := false, sendEot := false, srcDone := false,
                      cause := 0#4 } ∧
  State.reset.rcv = { phase := .idle, expectedSeq := 0#3, cause := 0#4 } ∧
  State.reset.src.cursor = 0 ∧ State.reset.sink = []

/-- R280: an rst that is due acts inside an operation, before any of its external calls. The operation is abandoned, the engine
is at its reset state and the calls already made stay made: before and between the calls of RCV.DATA and RCV.EOT, before the
send of RCV.OOO and EOT.SEND, before and between the calls of TXNEW and TXOLD, before the record of ACK and EOT.ACKED, before
the rewind of RESYNC and RESEND, and at a pending `ChRecv`, whose datagram stays in the bag. For every row: with an rst due it
ends at its reset registers, or as it does with none, fewer calls before the rst. The frame buffer of an operation abandoned
at its send holds the frame already encoded (log 15); the count of calls is the model's (log 6). -/
def Obligations.RstAbandonsAnOperation : Prop :=
  (∀ (s : State) (f : Body) (k : Nat), s.rcv.phase = .wait → f.seq = s.rcv.expectedSeq → rstDue .receiver k s →
    (k = 0 → exec (.rcvData f) s = .next (resetEngine .receiver s) ∧
      exec (.rcvEot f) s = .next (resetEngine .receiver s)) ∧
    (k = 1 →
      exec (.rcvData f) s =
        .next { resetEngine .receiver s with sink := s.sink ++ f.payload.take f.len.toNat } ∧
      exec (.rcvEot f) s =
        .next (resetEngine .receiver (encoded .receiver (frameEotAck f.seq)
          { s with rcvSide := { s.rcvSide with log := s.rcvSide.log ++ [.eotRx f.seq] } }))) ∧
    (k = 2 →
      exec (.rcvData f) s =
        .next { resetEngine .receiver (encoded .receiver (frameAck s.rcv.expectedSeq)
            { s with rcvSide := { s.rcvSide with log := s.rcvSide.log ++ [.dataRx f.seq] } }) with
          sink := s.sink ++ f.payload.take f.len.toNat })) ∧
  (∀ (s : State) (kd : Kind) (f : Body), s.rcv.phase = .wait → f.seq ≠ s.rcv.expectedSeq → rstDue .receiver 0 s →
    exec (.rcvOoo kd f) s = .next (resetEngine .receiver (encoded .receiver (frameAck s.rcv.expectedSeq) s))) ∧
  (∀ s : State, inContext .txNew s →
    (rstDue .sender 0 s → exec .txNew s = .next (resetEngine .sender s)) ∧
    (rstDue .sender 1 s → ∀ d, s.src.chunks[s.src.cursor]? = some d → 1 ≤ d.length → d.length ≤ 30 →
      s.snd.sentCount ≠ Config.maxCount →
      exec .txNew s = .next { resetEngine .sender (encoded .sender (chunkFrame s.snd.nextSeq d) s) with
        src := { s.src with cursor := s.src.cursor + 1 } })) ∧
  (∀ (s : State) (j : BitVec 3) (en : Entry) (k : Nat), inContext (.txOld j) s → (window s.snd)[j.toNat]? = some en →
    rstDue .sender k s →
    (k = 0 → exec (.txOld j) s = .next (resetEngine .sender s)) ∧
    (k = 1 → exec (.txOld j) s = .next { resetEngine .sender s with src := { s.src with cursor := en.off.toNat } }) ∧
    (k = 2 → ∀ d, s.src.chunks[en.off.toNat]? = some d → 1 ≤ d.length → d.length ≤ 30 →
      exec (.txOld j) s = .next { resetEngine .sender (encoded .sender (chunkFrame en.seq d) s) with
        src := { s.src with cursor := en.off.toNat + 1 } })) ∧
  (∀ (s : State) (f : Body) (n : Seq), rstDue .sender 0 s →
    (inContext .eotSend s → exec .eotSend s = .next (resetEngine .sender (encoded .sender (frameEot s.snd.base) s))) ∧
    (inContext .resend s → exec .resend s = .next (resetEngine .sender s)) ∧
    (s.snd.phase = .wait → s.snd.doNothing = false → exec (.ackRx f) s = .next (resetEngine .sender s)) ∧
    (s.snd.phase = .eotWait → exec (.eotAcked f) s = .next (resetEngine .sender s)) ∧
    (inContext (.resync n) s → (∃ a, resyncAdj s.adj s.snd.ackedCount = some a) →
      exec (.resync n) s = .next (resetEngine .sender s))) ∧
  (∀ (s : State) (rest : List Move) (e : Role) (c : RecvChoice), s.script = .answer e c :: rest → rstDue e 0 s →
    (c = .timeout ∨ c = .error ∨ ∃ i b, c = .deliver i ∧ (s.side e).inbox[i]? = some b) →
    ((e = .sender ∧ (s.snd.phase = .wait ∨ s.snd.phase = .eotWait)) ∨ (e = .receiver ∧ s.rcv.phase = .wait)) →
    step s = .next (resetEngine e (s.setScript rest))) ∧
  ∀ (i : Instr) (e : Role) (k : Nat) (s t : State), engineOf i = e → rstDue e k s → exec i s = .next t →
    (atReset e t ∧ (t.side e).rstAt = none) ∨
    ∃ j, j ≤ k ∧ rstDue e j t ∧ exec i (counted e none s) = .next (counted e none t)

/-- R34, R227, R252, R253: an engine in DONE or FAULT makes no call and keeps its registers; only an rst changes them. No datagram
of its is new in the peer's bag, it takes none from its own, it spends no answer to a send, records nothing, and leaves the
Source or the Sink as it is: what changes of these is the peer's, the Channel's or the platform's doing. -/
def Obligations.StoppedEnginesStayStopped : Prop :=
  ∀ s t : State, step s = .next t →
    (stopped .sender s = true →
      (t.snd = s.snd ∨ t.snd = senderReset) ∧ t.sndSide.log = s.sndSide.log ∧
      (t.src = s.src ∨ ∃ chunks fl, s.script.head? = some (.load chunks fl)) ∧
      (∀ b ∈ t.rcvSide.inbox, b ∈ s.rcvSide.inbox) ∧
      ((∃ more, t.sndSide.inbox = s.sndSide.inbox ++ more) ∨ ∃ i, s.script.head? = some (.drop .sender i)) ∧
      ∃ more, t.sndSide.answers = s.sndSide.answers ++ more) ∧
    (stopped .receiver s = true →
      (t.rcv = s.rcv ∨ t.rcv = receiverReset) ∧ t.rcvSide.log = s.rcvSide.log ∧ t.sink = s.sink ∧
      (∀ b ∈ t.sndSide.inbox, b ∈ s.sndSide.inbox) ∧
      ((∃ more, t.rcvSide.inbox = s.rcvSide.inbox ++ more) ∨ ∃ i, s.script.head? = some (.drop .receiver i)) ∧
      ∃ more, t.rcvSide.answers = s.rcvSide.answers ++ more)

/-- R29, R35, R142: `full`, `empty`, `done` and `fault` are functions of the registers: `done` is phase DONE and `fault` is phase
FAULT. On a link that keeps its invariant `fault` goes with a non-zero cause and `done` with cause 0 (R260). -/
def Obligations.DerivedOutputsFollowTheRegisters : Prop :=
  (∀ sn : Sender, (isFull sn = true ↔ sn.outstanding = 7#3) ∧ (isEmpty sn = true ↔ sn.outstanding = 0#3) ∧
    (sndDone sn = true ↔ sn.phase = .done) ∧ (sndFault sn = true ↔ sn.phase = .fault)) ∧
  (∀ rc : Receiver, (rcvDone rc = true ↔ rc.phase = .done) ∧ (rcvFault rc = true ↔ rc.phase = .fault)) ∧
  ∀ s : State, LinkInv s →
    (sndFault s.snd = true ↔ s.snd.cause ≠ 0#4) ∧ (rcvFault s.rcv = true ↔ s.rcv.cause ≠ 0#4) ∧
    (sndDone s.snd = true → s.snd.cause = 0#4) ∧ (rcvDone s.rcv = true → s.rcv.cause = 0#4)

/-- R34, R37, R220, R223, R227, R252, R253: whatever the move, a phase register goes only where the tables lead it, or to IDLE by
an rst, with every register of the engine at its reset value. -/
def Obligations.PhasesMoveAsTheTablesSay : Prop :=
  ∀ s t : State, step s = .next t → sndMayMove s.snd t.snd ∧ rcvMayMove s.rcv t.rcv

/-- R205, R202, R223: DONE is entered only by the handshake. SND enters it from EOTWAIT with an EotAck recorded and no other
register changed, RCV from WAIT with the Eot that carries `expectedSeq` recorded and no other register changed. -/
def Obligations.TransferEndsOnlyByTheHandshake : Prop :=
  ∀ s t : State, step s = .next t →
    (s.snd.phase ≠ .done → t.snd.phase = .done →
      s.snd.phase = .eotWait ∧ t.snd = { s.snd with phase := .done } ∧
      ∃ n, t.sndSide.log = s.sndSide.log ++ [.eotAckRx n]) ∧
    (s.rcv.phase ≠ .done → t.rcv.phase = .done →
      s.rcv.phase = .wait ∧ t.rcv = { s.rcv with phase := .done } ∧
      t.rcvSide.log = s.rcvSide.log ++ [.eotRx s.rcv.expectedSeq])

/-! ### SND.START and the cycle -/

/-- R140: start in IDLE writes CYCLE and nothing else; start in any other phase does nothing. A Source whose cursor is not at
chunk 0 is outside the spec (R282(d), RV9; log 13). -/
def Obligations.SndStartOnlyInIdle : Prop :=
  ∀ s : State,
    (s.snd.phase = .idle → s.src.cursor = 0 → exec .sndStart s = .next { s with snd := { s.snd with phase := .cycle } }) ∧
    (s.snd.phase ≠ .idle → exec .sndStart s = .next s) ∧
    (s.snd.phase = .idle → s.src.cursor ≠ 0 → exec .sndStart s = .refused .sourceCursor)

/-- R144: TXNEW, every answer of the Source and of the Channel. Exhausted sets `srcDone`; a chunk of no bytes, then one of more
than 30, then a full counter (with the chunk taken) are faults, in this order, with nothing sent; else the chunk is sent under
`nextSeq`, and on ok the registers of the rule are written. Where the cursor stands after a chunk of no bytes or of more than 30
is a free value (the model's choice, log 17); whether the datagram of a send that answered Error is in the bag all the same is
open (the model's choice, log 5). -/
def Obligations.TxNewTakesOneChunk : Prop :=
  ∀ s : State, s.snd.phase = .cycle → s.snd.sendEot = false → s.snd.doNothing = false →
    s.snd.outstanding.toNat < 7 → s.snd.srcDone = false → noRst .sender s →
    (s.src.chunks[s.src.cursor]? = none → exec .txNew s = .next { s with snd := { s.snd with srcDone := true } }) ∧
    (∀ d, s.src.chunks[s.src.cursor]? = some d → (d.length = 0 ∨ 30 < d.length) →
      exec .txNew s = .next { s with
        src := { s.src with cursor := Config.brokenChunkCursor s.src.cursor d }
        snd := { s.snd with cause := if d.length = 0 then 3#4 else 8#4, phase := .fault } }) ∧
    (∀ d, s.src.chunks[s.src.cursor]? = some d → 1 ≤ d.length → d.length ≤ 30 → s.snd.sentCount = Config.maxCount →
      exec .txNew s = .next { s with
        src := { s.src with cursor := s.src.cursor + 1 }
        snd := { s.snd with cause := 7#4, phase := .fault } }) ∧
    (∀ d, s.src.chunks[s.src.cursor]? = some d → 1 ≤ d.length → d.length ≤ 30 → s.snd.sentCount ≠ Config.maxCount →
      (sendOk .sender s →
        exec .txNew s = .next { passed .sender (chunkFrame s.snd.nextSeq d) s with
          src := { s.src with cursor := s.src.cursor + 1 }
          snd := { s.snd with
            inFlight := s.snd.inFlight.take s.snd.outstanding.toNat ++ [{ seq := s.snd.nextSeq, off := s.snd.sentCount }]
            outstanding := s.snd.outstanding + 1#3
            nextSeq := s.snd.nextSeq + 1#3
            sentCount := s.snd.sentCount + 1#32
            srcDone := s.src.flagsLast && decide (s.src.cursor + 1 = s.src.chunks.length) } }) ∧
      (∀ kept rest, s.sndSide.answers = .error kept :: rest →
        exec .txNew s = .next { sendFailed .sender (chunkFrame s.snd.nextSeq d) kept rest s with
          src := { s.src with cursor := s.src.cursor + 1 } }))

/-- R143: FILL is the loop `while outstanding < 7 and srcDone == 0: TXNEW`, whatever stands in the state. -/
def Obligations.FillIsItsWhileLoop : Prop :=
  ∀ s : State, fillBody s =
    if s.snd.outstanding.toNat < 7 ∧ s.snd.srcDone = false then (txNewBody s).bind (fun _ t => fillBody t) else .ok () s

/-- R143, R144, R148: FILL from a Source that keeps its contract sends the next chunks, numbered on from `nextSeq`, until the
window is full or the Source is exhausted, and completes. `srcDone` is set exactly where the Source ran out before the window was
full, or flags its last chunk and that chunk was the last that fitted; with chunks left behind a full window it stays 0. -/
def Obligations.FillKeepsTheWindowFull : Prop :=
  ∀ s : State, s.snd.phase = .cycle → s.snd.sendEot = false → s.snd.doNothing = false → s.snd.srcDone = false →
    undisturbed .sender s → SourceOk s → s.snd.outstanding.toNat = s.snd.inFlight.length →
    s.snd.sentCount.toNat + 7 < 4294967296 →
    ∃ t, exec .fill s = .next t ∧
      t.snd.outstanding.toNat = s.snd.outstanding.toNat + fillCount s ∧
      t.snd.nextSeq = s.snd.nextSeq + BitVec.ofNat 3 (fillCount s) ∧
      t.snd.sentCount = s.snd.sentCount + BitVec.ofNat 32 (fillCount s) ∧
      t.snd.inFlight = s.snd.inFlight ++ (List.range (fillCount s)).map (fun j =>
        { seq := s.snd.nextSeq + BitVec.ofNat 3 j, off := s.snd.sentCount + BitVec.ofNat 32 j : Entry }) ∧
      t.rcvSide = { s.rcvSide with inbox := s.rcvSide.inbox ++ (List.range (fillCount s)).map (fun j =>
        encodeFrame (chunkFrame (s.snd.nextSeq + BitVec.ofNat 3 j) (chunkAt s (s.src.cursor + j)))) } ∧
      t.src = { s.src with cursor := s.src.cursor + fillCount s } ∧
      (t.snd.outstanding = 7#3 ∨ t.snd.srcDone = true) ∧
      (t.snd.srcDone = true ↔ s.src.chunks.length - s.src.cursor < 7 - s.snd.outstanding.toNat ∨
        (s.src.flagsLast = true ∧ s.src.chunks.length - s.src.cursor = 7 - s.snd.outstanding.toNat ∧
          s.src.cursor < s.src.chunks.length)) ∧
      t.snd.phase = .cycle ∧ t.snd.base = s.snd.base ∧ t.snd.ackedCount = s.snd.ackedCount ∧ t.snd.doNothing = false ∧
      t.snd.resend = s.snd.resend ∧ t.snd.sendEot = false ∧ t.snd.cause = s.snd.cause ∧ t.rcv = s.rcv ∧ t.sink = s.sink ∧
      t.adj = s.adj ∧ t.script = s.script ∧ t.sndSide = { s.sndSide with fb := t.sndSide.fb } ∧
      ∀ a, 33 ≤ a → memGet t.sndSide.fb a = memGet s.sndSide.fb a

/-- R146: TXOLD reads the entry's chunk again and sends it under the entry's number; no register changes. A chunk of no bytes,
one of more than 30, Exhausted and a send that answers Error are faults. Where the cursor stands after a chunk of no bytes or of
more than 30 is a free value (the model's choice, log 17); whether the datagram of a send that answered Error is in the bag all
the same is open (the model's choice, log 5). -/
def Obligations.TxOldSendsTheEntryAgain : Prop :=
  ∀ (s : State) (j : BitVec 3) (en : Entry), s.snd.phase = .cycle → s.snd.sendEot = false → s.snd.resend = true →
    (window s.snd)[j.toNat]? = some en → noRst .sender s →
    (∀ d, s.src.chunks[en.off.toNat]? = some d → 1 ≤ d.length → d.length ≤ 30 →
      (sendOk .sender s →
        exec (.txOld j) s = .next { passed .sender (chunkFrame en.seq d) s with
          src := { s.src with cursor := en.off.toNat + 1 } }) ∧
      (∀ kept rest, s.sndSide.answers = .error kept :: rest →
        exec (.txOld j) s = .next { sendFailed .sender (chunkFrame en.seq d) kept rest s with
          src := { s.src with cursor := en.off.toNat + 1 } })) ∧
    (∀ d, s.src.chunks[en.off.toNat]? = some d → (d.length = 0 ∨ 30 < d.length) →
      exec (.txOld j) s = .next { s with
        src := { s.src with cursor := Config.brokenChunkCursor en.off.toNat d }
        snd := { s.snd with cause := if d.length = 0 then 3#4 else 8#4, phase := .fault } }) ∧
    (s.src.chunks[en.off.toNat]? = none →
      exec (.txOld j) s = .next { s with
        src := { s.src with cursor := en.off.toNat }
        snd := { s.snd with cause := 8#4, phase := .fault } })

/-- R145: RESEND sends every frame in `inFlight` again, front first, puts the Source's cursor at `sentCount`, clears `resend`
and changes no other register. -/
def Obligations.ResendSendsTheWindowInOrder : Prop :=
  ∀ s : State, s.snd.phase = .cycle → s.snd.sendEot = false → s.snd.resend = true → undisturbed .sender s → SourceOk s →
    (∀ en ∈ window s.snd, en.off.toNat < s.src.chunks.length) →
    ∃ t, exec .resend s = .next t ∧ t.snd = { s.snd with resend := false } ∧
      t.src = { s.src with cursor := s.snd.sentCount.toNat } ∧
      t.rcvSide = { s.rcvSide with inbox := s.rcvSide.inbox ++ (window s.snd).map (fun en =>
        encodeFrame (chunkFrame en.seq (chunkAt s en.off.toNat))) } ∧
      t.rcv = s.rcv ∧ t.sink = s.sink ∧ t.adj = s.adj ∧ t.script = s.script ∧
      t.sndSide = { s.sndSide with fb := t.sndSide.fb } ∧
      ∀ a, 33 ≤ a → memGet t.sndSide.fb a = memGet s.sndSide.fb a

/-- R141: SND.CYCLE is the handshake when it is requested; else FILL where its condition holds, then RESEND if requested, then
the wait; a fault or an rst ends it where it is raised. -/
def Obligations.SndCycleRunsItsPhasesInOrder : Prop :=
  ∀ s : State, s.snd.phase = .cycle →
    (s.snd.sendEot = true → exec .sndCycle s = exec .eotSend s) ∧
    (s.snd.sendEot = false → ∀ t u : State,
      (if s.snd.doNothing = false ∧ s.snd.srcDone = false ∧ s.snd.outstanding ≠ 7#3 then exec .fill s else .next s) = .next t →
      (t.snd.phase ≠ .cycle → exec .sndCycle s = .next t) ∧
      (t.snd.phase = .cycle → (if t.snd.resend = true then exec .resend t else .next t) = .next u →
        (u.snd.phase ≠ .cycle → exec .sndCycle s = .next u) ∧
        (u.snd.phase = .cycle → exec .sndCycle s = .next (u.setSndPhase .wait))))

/-- R141, R147: from a state of a running transfer, with a Source that keeps its contract and no request for the handshake,
SND.CYCLE completes: SND waits, nothing is requested, and unless sending is suppressed the window is full or the Source
exhausted. -/
def Obligations.SndCycleEndsInTheWait : Prop :=
  ∀ s : State, ProtocolInv s → s.snd.phase = .cycle → s.snd.sendEot = false → undisturbed .sender s → SourceOk s →
    (∀ en ∈ s.snd.inFlight, en.off.toNat < s.src.chunks.length) → s.snd.sentCount.toNat + 7 < 4294967296 →
    ∃ t, exec .sndCycle s = .next t ∧ t.snd.phase = .wait ∧ t.snd.resend = false ∧ t.snd.base = s.snd.base ∧
      t.snd.ackedCount = s.snd.ackedCount ∧ t.snd.doNothing = s.snd.doNothing ∧ t.snd.sendEot = false ∧
      (s.snd.doNothing = false → t.snd.outstanding = 7#3 ∨ t.snd.srcDone = true) ∧ t.rcv = s.rcv ∧ t.sink = s.sink ∧
      ∃ more, t.rcvSide = { s.rcvSide with inbox := s.rcvSide.inbox ++ more }

/-- R200: EOT.SEND sends Eot(base) and waits for the reply; a send that answers Error is CHANNEL_SEND, the datagram being in the
bag or not (the model's choice, log 5). By the protocol's
invariant the window is empty then and `base` is `nextSeq`. -/
def Obligations.EotSendSendsEotOfBase : Prop :=
  ∀ s : State, s.snd.phase = .cycle → s.snd.sendEot = true →
    (noRst .sender s → sendOk .sender s →
      exec .eotSend s = .next { passed .sender { kind := .eot, seq := s.snd.base, len := 0#5, payload := zeros 30 } s with
        snd := { s.snd with phase := .eotWait } }) ∧
    (noRst .sender s → ∀ kept rest, s.sndSide.answers = .error kept :: rest →
      exec .eotSend s =
        .next (sendFailed .sender { kind := .eot, seq := s.snd.base, len := 0#5, payload := zeros 30 } kept rest s)) ∧
    (ProtocolInv s → s.snd.outstanding = 0#3 ∧ s.snd.inFlight = [] ∧ s.snd.base = s.snd.nextSeq)

/-! ### The events of WAIT -/

/-- R170, R171: TIMEOUT requests the retransmission, or with an empty window clears `doNothing` and, if every chunk has been
transmitted, requests the handshake; nothing else changes. SND.EVENT on Timeout is TIMEOUT and then CYCLE. -/
def Obligations.TimeoutRequestsWhatIsDue : Prop :=
  ∀ s : State, s.snd.phase = .wait → ∃ sn : Sender,
    exec .timeout s = .next { s with snd := sn } ∧
    exec (.sndEvent .timeout) s = .next { s with snd := { sn with phase := .cycle } } ∧
    (s.snd.outstanding ≠ 0#3 → s.snd.doNothing = false → sn = { s.snd with resend := true }) ∧
    (s.snd.outstanding ≠ 0#3 → s.snd.doNothing = true → sn = s.snd) ∧
    (s.snd.outstanding = 0#3 → s.snd.srcDone = true → sn = { s.snd with doNothing := false, sendEot := true }) ∧
    (s.snd.outstanding = 0#3 → s.snd.srcDone = false → sn = { s.snd with doNothing := false })

/-- R173: ACK(n) records the acknowledgement and then performs the row its scan and the late-frame test select; under
`doNothing` it is ACK.DISCARD and nothing is recorded. -/
def Obligations.AckPerformsTheSelectedRow : Prop :=
  ∀ (s : State) (f : Body), s.snd.phase = .wait →
    (s.snd.doNothing = true → exec (.ackRx f) s = exec (.ackDiscard f) s) ∧
    (s.snd.doNothing = false → noRst .sender s → ∀ u,
      u = s.setSide .sender { s.sndSide with log := s.sndSide.log ++ [.ackRx f.seq] } →
      ((∃ en ∈ window s.snd, en.seq = f.seq) → exec (.ackRx f) s = exec (.ackCum f) u) ∧
      ((¬ ∃ en ∈ window s.snd, en.seq = f.seq) →
        (s.snd.srcDone = true ∧ s.snd.outstanding.toNat < 6 ∧ f.seq.toNat = s.snd.sentCount.toNat % 8) →
        exec (.ackRx f) s = exec (.ackLate f) u) ∧
      ((¬ ∃ en ∈ window s.snd, en.seq = f.seq) →
        (¬ (s.snd.srcDone = true ∧ s.snd.outstanding.toNat < 6 ∧ f.seq.toNat = s.snd.sentCount.toNat % 8)) →
        exec (.ackRx f) s = exec (.ackResync f) u))

/-- R173, R175: ACK(n) with n in the window completes: it is recorded, the entries up to and including n are popped, and nothing
else is changed. -/
def Obligations.AckInWindowCompletes : Prop :=
  ∀ (s : State) (f : Body), s.snd.phase = .wait → s.snd.doNothing = false → noRst .sender s → WindowInv s.snd →
    (f.seq - s.snd.base).toNat < s.snd.outstanding.toNat →
    exec (.ackRx f) s = .next { s with
      snd := { s.snd with
        inFlight := s.snd.inFlight.drop ((f.seq - s.snd.base).toNat + 1)
        base := f.seq + 1#3
        ackedCount := s.snd.ackedCount + BitVec.ofNat 32 ((f.seq - s.snd.base).toNat + 1)
        outstanding := s.snd.outstanding - BitVec.ofNat 3 ((f.seq - s.snd.base).toNat + 1) }
      sndSide := { s.sndSide with log := s.sndSide.log ++ [.ackRx f.seq] } }

/-- R173: by the window invariants the scan is the test `((n - base) mod 8) < outstanding`, and its count is that difference
plus one. -/
def Obligations.ScanIsTheModularTest : Prop :=
  ∀ (sn : Sender) (n : Seq), WindowInv sn →
    scanWindow n (window sn) =
      if (n - sn.base).toNat < sn.outstanding.toNat then some ((n - sn.base).toNat + 1) else none

/-- R175, R179: after a cumulative acknowledgement for n in the window, `base` is n + 1 and `outstanding` and the window have
lost exactly the frames numbered from the old base to n; the acknowledged counter has gained them. -/
def Obligations.AckCumPopsUpToTheNumber : Prop :=
  ∀ (s : State) (f : Body), s.snd.phase = .wait → s.snd.doNothing = false → WindowInv s.snd →
    (f.seq - s.snd.base).toNat < s.snd.outstanding.toNat →
    exec (.ackCum f) s = .next { s with snd := { s.snd with
      inFlight := s.snd.inFlight.drop ((f.seq - s.snd.base).toNat + 1)
      base := f.seq + 1#3
      ackedCount := s.snd.ackedCount + BitVec.ofNat 32 ((f.seq - s.snd.base).toNat + 1)
      outstanding := s.snd.outstanding - BitVec.ofNat 3 ((f.seq - s.snd.base).toNat + 1) } }

/-- R174: the late-frame case pops the whole remaining window; with an empty window it changes nothing, and with 6 or 7 frames
outstanding no number selects it. -/
def Obligations.AckLateEmptiesTheWindow : Prop :=
  ∀ (s : State) (f : Body),
    (s.snd.phase = .wait → s.snd.doNothing = false → WindowInv s.snd →
      (¬ (f.seq - s.snd.base).toNat < s.snd.outstanding.toNat) → s.snd.srcDone = true → s.snd.outstanding.toNat < 6 →
      f.seq = sentMod8 s.snd →
      exec (.ackLate f) s = .next { s with snd := { s.snd with
        inFlight := []
        base := s.snd.base + s.snd.outstanding
        ackedCount := s.snd.ackedCount + s.snd.outstanding.setWidth 32
        outstanding := 0#3 } } ∧
      (s.snd.outstanding = 0#3 → exec (.ackLate f) s = .next s)) ∧
    (6 ≤ s.snd.outstanding.toNat → ackBranch f.seq s.snd ≠ .late)

/-- R172, R178: a discarded acknowledgement, and a Data, EotAck or Eot frame in WAIT, change nothing and record nothing. -/
def Obligations.IgnoredFramesChangeNothing : Prop :=
  ∀ (s : State) (f : Body), s.snd.phase = .wait →
    (s.snd.doNothing = true → exec (.ackDiscard f) s = .next s ∧ exec (.ackRx f) s = .next s) ∧
    exec (.sndIgnoreData f) s = .next s ∧ exec (.sndIgnoreEotAck f) s = .next s ∧ exec (.sndIgnoreEot f) s = .next s

/-- R177: RESYNC(n) under the instance's RESYNC_ADJ, and R246: where that is not defined at `ackedCount` it is the fault
RESYNC_UNDERFLOW before any register changes. Under the default the corrected count is the count less one, and with no
acknowledged frame it is the fault. -/
def Obligations.ResyncResetsTheWindow : Prop :=
  ∀ (s : State) (n : Seq), (s.snd.phase = .wait ∨ s.snd.phase = .eotWait) → noRst .sender s →
    (∀ a, resyncAdj s.adj s.snd.ackedCount = some a →
      exec (.resync n) s = .next { s with
        src := { s.src with cursor := a.toNat }
        snd := { s.snd with
          inFlight := [], outstanding := 0#3, base := n, nextSeq := n, ackedCount := a, sentCount := a
          srcDone := false, doNothing := true } }) ∧
    (resyncAdj s.adj s.snd.ackedCount = none →
      exec (.resync n) s = .next { s with snd := { s.snd with cause := 6#4, phase := .fault } }) ∧
    (s.adj = [] → s.snd.ackedCount ≠ 0#32 →
      exec (.resync n) s = .next { s with
        src := { s.src with cursor := s.snd.ackedCount.toNat - 1 }
        snd := { s.snd with
          inFlight := [], outstanding := 0#3, base := n, nextSeq := n
          ackedCount := s.snd.ackedCount - 1#32, sentCount := s.snd.ackedCount - 1#32
          srcDone := false, doNothing := true } }) ∧
    (s.adj = [] → s.snd.ackedCount = 0#32 →
      exec (.resync n) s = .next { s with snd := { s.snd with cause := 6#4, phase := .fault } })

/-- R10, R177: RESYNC_ADJ is a parameter of the machine, with the literal decrement as its default. Every function of a count is
the RESYNC_ADJ of some instance, RESYNC there applies it, and no step changes it. That the parameter is held as a table in State
is the model's choice (log 9). -/
def Obligations.ResyncUnderAnyCorrection : Prop :=
  (∀ a : Count, resyncAdj [] a = if a = 0#32 then none else some (a - 1#32)) ∧
  (∀ s t : State, step s = .next t → t.adj = s.adj) ∧
  ∀ f : Count → Option Count, ∃ c : Correction, ∀ (s : State) (n : Seq), s.adj = c →
    (s.snd.phase = .wait ∨ s.snd.phase = .eotWait) → noRst .sender s →
    (∀ a, f s.snd.ackedCount = some a →
      exec (.resync n) s = .next { s with
        src := { s.src with cursor := a.toNat }
        snd := { s.snd with
          inFlight := [], outstanding := 0#3, base := n, nextSeq := n, ackedCount := a, sentCount := a
          srcDone := false, doNothing := true } }) ∧
    (f s.snd.ackedCount = none →
      exec (.resync n) s = .next { s with snd := { s.snd with cause := 6#4, phase := .fault } })

/-- R176: the out-of-window acknowledgement is RESYNC of its number; where RESYNC_ADJ is defined at `ackedCount` it completes, by
default with a frame acknowledged before. -/
def Obligations.AckResyncIsResync : Prop :=
  ∀ (s : State) (f : Body), s.snd.phase = .wait → ackBranch f.seq s.snd = .resync →
    exec (.ackResync f) s = exec (.resync f.seq) s ∧
    (noRst .sender s → ∀ a, resyncAdj s.adj s.snd.ackedCount = some a →
      exec (.ackResync f) s = .next { s with
        src := { s.src with cursor := a.toNat }
        snd := { s.snd with
          inFlight := [], outstanding := 0#3, base := f.seq, nextSeq := f.seq, ackedCount := a, sentCount := a
          srcDone := false, doNothing := true } }) ∧
    (s.adj = [] → s.snd.ackedCount ≠ 0#32 → resyncAdj s.adj s.snd.ackedCount = some (s.snd.ackedCount - 1#32))

/-- R180: after an acknowledgement in the window has been processed, the same number is no longer in the window: its replay is
the late-frame case or a resynchronization. -/
def Obligations.ReplayedAckIsOutOfWindow : Prop :=
  ∀ (s t : State) (f : Body), WindowInv s.snd → exec (.ackCum f) s = .next t →
    ackBranch f.seq t.snd = .late ∨ ackBranch f.seq t.snd = .resync

/-! ### The handshake -/

/-- R202: an EotAck with any number ends the transfer and is recorded. -/
def Obligations.EotAckedEndsTheTransfer : Prop :=
  ∀ (s : State) (f : Body), s.snd.phase = .eotWait → noRst .sender s →
    exec (.eotAcked f) s = .next { s with
      snd := { s.snd with phase := .done }
      sndSide := { s.sndSide with log := s.sndSide.log ++ [.eotAckRx f.seq] } }

/-- R203: any other reply resynchronizes on its number, withdraws the request and returns to the cycle; nothing is recorded.
Where RESYNC_ADJ is not defined at `ackedCount`, by default with no acknowledged frame, it is the fault RESYNC_UNDERFLOW with the
request standing. -/
def Obligations.EotOtherResynchronizes : Prop :=
  ∀ (s : State) (f : Body) (i : Instr), (i = .eotOtherAck f ∨ i = .eotOtherData f ∨ i = .eotOtherEot f) →
    s.snd.phase = .eotWait → noRst .sender s →
    (∀ a, resyncAdj s.adj s.snd.ackedCount = some a →
      exec i s = .next { s with
        src := { s.src with cursor := a.toNat }
        snd := { s.snd with
          inFlight := [], outstanding := 0#3, base := f.seq, nextSeq := f.seq, ackedCount := a, sentCount := a
          srcDone := false, doNothing := true, sendEot := false, phase := .cycle } }) ∧
    (resyncAdj s.adj s.snd.ackedCount = none →
      exec i s = .next { s with snd := { s.snd with cause := 6#4, phase := .fault } }) ∧
    (s.adj = [] → resyncAdj s.adj s.snd.ackedCount =
      if s.snd.ackedCount = 0#32 then none else some (s.snd.ackedCount - 1#32))

/-- R201, R204: a Timeout in EOTWAIT returns to the cycle and changes nothing else, so Eot is sent again: in a link that keeps the
protocol's invariant `sendEot` is 1 there, and SND's next operation is EOT.SEND. -/
def Obligations.EotTimeoutReturnsToTheCycle : Prop :=
  ∀ s : State, s.snd.phase = .eotWait → ∀ t, t = { s with snd := { s.snd with phase := .cycle } } →
    exec .eotTimeout s = .next t ∧ exec (.eotEvent .timeout) s = .next t ∧
    (ProtocolInv s → t.snd.sendEot = true ∧
      ∀ rest, step (t.setScript (.run :: rest)) = exec .eotSend (t.setScript rest))

/-! ### RCV -/

/-- R220: start in IDLE writes WAIT; in any other phase it does nothing. -/
def Obligations.RcvStartOnlyInIdle : Prop :=
  ∀ s : State,
    (s.rcv.phase = .idle → exec .rcvStart s = .next { s with rcv := { s.rcv with phase := .wait } }) ∧
    (s.rcv.phase ≠ .idle → exec .rcvStart s = .next s)

/-- R222: RCV.DATA appends the first `length` bytes, records, replies Ack(expectedSeq) and advances; when the reply's send
answers Error the append and the record stand and `expectedSeq` has not advanced, the datagram being in the bag or not (the
model's choice, log 5). -/
def Obligations.RcvDataAcceptsTheFrame : Prop :=
  ∀ (s : State) (f : Body), s.rcv.phase = .wait → f.seq = s.rcv.expectedSeq → noRst .receiver s →
    (sendOk .receiver s →
      exec (.rcvData f) s =
        .next { passed .receiver { kind := .ack, seq := s.rcv.expectedSeq, len := 0#5, payload := zeros 30 }
            { s with rcvSide := { s.rcvSide with log := s.rcvSide.log ++ [.dataRx f.seq] } } with
          sink := s.sink ++ f.payload.take f.len.toNat
          rcv := { s.rcv with expectedSeq := s.rcv.expectedSeq + 1#3 } }) ∧
    (∀ kept rest, s.rcvSide.answers = .error kept :: rest →
      exec (.rcvData f) s =
        .next { sendFailed .receiver { kind := .ack, seq := s.rcv.expectedSeq, len := 0#5, payload := zeros 30 } kept rest
            { s with rcvSide := { s.rcvSide with log := s.rcvSide.log ++ [.dataRx f.seq] } } with
          sink := s.sink ++ f.payload.take f.len.toNat })

/-- R223: RCV.EOT records, replies EotAck and ends; `expectedSeq` is frozen. When the reply's send answers Error the record
stands and RCV is in FAULT, the datagram being in the bag or not (the model's choice, log 5). -/
def Obligations.RcvEotEndsTheTransfer : Prop :=
  ∀ (s : State) (f : Body), s.rcv.phase = .wait → f.seq = s.rcv.expectedSeq → noRst .receiver s →
    (sendOk .receiver s →
      exec (.rcvEot f) s =
        .next { passed .receiver { kind := .eotAck, seq := f.seq, len := 0#5, payload := zeros 30 }
            { s with rcvSide := { s.rcvSide with log := s.rcvSide.log ++ [.eotRx f.seq] } } with
          rcv := { s.rcv with phase := .done } }) ∧
    (∀ kept rest, s.rcvSide.answers = .error kept :: rest →
      exec (.rcvEot f) s =
        .next (sendFailed .receiver { kind := .eotAck, seq := f.seq, len := 0#5, payload := zeros 30 } kept rest
          { s with rcvSide := { s.rcvSide with log := s.rcvSide.log ++ [.eotRx f.seq] } }))

/-- R224: an out-of-order frame of any kind draws Ack(expectedSeq) and nothing else; a send that answers Error is CHANNEL_SEND,
the datagram being in the bag or not (the model's choice, log 5). -/
def Obligations.RcvOooRepliesTheNumberItWaitsFor : Prop :=
  ∀ (s : State) (k : Kind) (f : Body), s.rcv.phase = .wait → f.seq ≠ s.rcv.expectedSeq → noRst .receiver s →
    (sendOk .receiver s →
      exec (.rcvOoo k f) s =
        .next (passed .receiver { kind := .ack, seq := s.rcv.expectedSeq, len := 0#5, payload := zeros 30 } s)) ∧
    (∀ kept rest, s.rcvSide.answers = .error kept :: rest →
      exec (.rcvOoo k f) s =
        .next (sendFailed .receiver { kind := .ack, seq := s.rcv.expectedSeq, len := 0#5, payload := zeros 30 } kept rest s))

/-- R225, R226: an in-order Ack or EotAck and a Timeout change nothing and draw no reply. -/
def Obligations.RcvIgnoresRepliesAndTimeouts : Prop :=
  ∀ (s : State) (f : Body), s.rcv.phase = .wait →
    (f.seq = s.rcv.expectedSeq → exec (.rcvIgnoreAck f) s = .next s ∧ exec (.rcvIgnoreEotAck f) s = .next s) ∧
    exec .rcvTimeout s = .next s ∧ exec (.rcvEvent .timeout) s = .next s

/-- R228: `expectedSeq` changes only by an rst or by the acceptance of the Data frame the step takes to RCV, which carries it, and
then by exactly one, with that frame's data appended to the Sink and its number recorded. The Sink changes only so in a transfer:
by the append of the data of the frame the step takes, which carries `expectedSeq`, whatever becomes of its reply; that a new
Sink is put in place only before start is the model's choice (log 16). The frame is the one DECODE reads in the datagram that the
Channel delivers, or the one at the operation port, which is the model's (log 12). -/
def Obligations.ExpectedSeqAdvancesOnlyOnAcceptance : Prop :=
  ∀ s t : State, step s = .next t →
    (t.rcv.expectedSeq ≠ s.rcv.expectedSeq →
      t.rcv = receiverReset ∨
      (t.rcv.expectedSeq = s.rcv.expectedSeq + 1#3 ∧ ∃ f : Body, takesData s f ∧ f.seq = s.rcv.expectedSeq ∧
        t.sink = s.sink ++ f.payload.take f.len.toNat ∧ t.rcvSide.log = s.rcvSide.log ++ [.dataRx f.seq])) ∧
    (t.sink ≠ s.sink →
      (s.rcv.phase = .wait ∧ ∃ f : Body, takesData s f ∧ f.seq = s.rcv.expectedSeq ∧
        t.sink = s.sink ++ f.payload.take f.len.toNat) ∨
      (s.rcv.phase = .idle ∧ s.script.head? = some .newSink ∧ t.sink = []))

/-! ### The whole machine -/

/-- R74, R257: the two engines share nothing. A row of one engine leaves the other's registers, log, frame buffer and collaborator as they
are; all the other can see of it is more datagrams in its bag. -/
def Obligations.EnginesShareNoState : Prop :=
  ∀ (i : Instr) (s t : State), exec i s = .next t →
    (engineOf i = .sender → t.rcv = s.rcv ∧ t.sink = s.sink ∧
      ∃ more, t.rcvSide = { s.rcvSide with inbox := s.rcvSide.inbox ++ more }) ∧
    (engineOf i = .receiver → t.snd = s.snd ∧ t.src = s.src ∧
      ∃ more, t.sndSide = { s.sndSide with inbox := s.sndSide.inbox ++ more })

/-- R74: a row of one engine does not depend on anything of the other: from two states that look the same to its instance it
answers states that look the same to it. -/
def Obligations.EnginesLearnOnlyFromFrames : Prop :=
  ∀ (i : Instr) (s s' t : State), exec i s = .next t →
    (engineOf i = .sender → sameForSender s s' → ∃ t', exec i s' = .next t' ∧ sameForSender t t') ∧
    (engineOf i = .receiver → sameForReceiver s s' → ∃ t', exec i s' = .next t' ∧ sameForReceiver t t')

/-- R64, R71, R97: a step alters no datagram. What stands in a bag after it stood there before, or is the 33 bytes of a valid
frame: of kind Data or Eot towards RCV, of kind Ack or EotAck towards SND. -/
def Obligations.BagsHoldOnlyWholeFrames : Prop :=
  ∀ s t : State, step s = .next t →
    (∀ b ∈ t.rcvSide.inbox, b ∈ s.rcvSide.inbox ∨
      ∃ f, frameWf f = true ∧ (f.kind = .data ∨ f.kind = .eot) ∧ b = encodeFrame f) ∧
    (∀ b ∈ t.sndSide.inbox, b ∈ s.sndSide.inbox ∨
      ∃ f, frameWf f = true ∧ (f.kind = .ack ∨ f.kind = .eotAck) ∧ b = encodeFrame f)

/-- R149: while the numbering is `k mod 8`, every step keeps it but one that resynchronizes: that one leaves `doNothing` set and
the next chunk, of the corrected index, numbered by the acknowledgement. -/
def Obligations.NumberingSurvivesAllButResync : Prop :=
  ∀ s t : State, NumberingInv s.snd → step s = .next t →
    NumberingInv t.snd ∨
    (t.snd.doNothing = true ∧ t.snd.nextSeq = t.snd.base ∧ resyncAdj s.adj s.snd.ackedCount = some t.snd.sentCount ∧
      t.snd.sentCount = t.snd.ackedCount)

/-- R27, R28(a) and (b), R35, R60: every step of the link, whatever move it takes, keeps the window and counter invariants, the
status outputs' bookkeeping and the frame buffers' canonical form. -/
def Obligations.EveryStepKeepsTheLinkInvariant : Prop :=
  ∀ s t : State, LinkInv s → step s = .next t → LinkInv t

/-- The two invariants hold at reset (R27, R28, R31, R35, R40, R60). -/
def Obligations.InvariantsHoldAtReset : Prop :=
  LinkInv State.reset ∧ ProtocolInv State.reset

/-- R28(c), R31, R171, R200, R292: every step of the block's own operations keeps besides the Source cursor at `sentCount` and the
flags as the phases allow them. A part of an operation run alone at the model's port is excepted (log 12). -/
def Obligations.EveryOwnStepKeepsTheProtocolInvariant : Prop :=
  ∀ s t : State, ProtocolInv s → portQuiet s → step s = .next t → ProtocolInv t
end

