-- ==== Sys2Proof/Laws/State.lean ====
section
/-! SUPPORT. One lemma per field per update of State, true by rfl, and the lemmas of `Res`, `side`, `takeFault` and
`resetEngine` that unfold them once. -/

namespace Sys2Proof.Machine

section SetSnd
variable (s : State) (x : Sender)
@[simp] theorem setSnd_snd : (s.setSnd x).snd = x := rfl
@[simp] theorem setSnd_rcv : (s.setSnd x).rcv = s.rcv := rfl
@[simp] theorem setSnd_sndSide : (s.setSnd x).sndSide = s.sndSide := rfl
@[simp] theorem setSnd_rcvSide : (s.setSnd x).rcvSide = s.rcvSide := rfl
@[simp] theorem setSnd_src : (s.setSnd x).src = s.src := rfl
@[simp] theorem setSnd_sink : (s.setSnd x).sink = s.sink := rfl
@[simp] theorem setSnd_script : (s.setSnd x).script = s.script := rfl
@[simp] theorem setSnd_adj : (s.setSnd x).adj = s.adj := rfl
@[simp] theorem setSnd_side (e : Role) : (s.setSnd x).side e = s.side e := by cases e <;> rfl
end SetSnd

section SetRcv
variable (s : State) (x : Receiver)
@[simp] theorem setRcv_snd : (s.setRcv x).snd = s.snd := rfl
@[simp] theorem setRcv_rcv : (s.setRcv x).rcv = x := rfl
@[simp] theorem setRcv_sndSide : (s.setRcv x).sndSide = s.sndSide := rfl
@[simp] theorem setRcv_rcvSide : (s.setRcv x).rcvSide = s.rcvSide := rfl
@[simp] theorem setRcv_src : (s.setRcv x).src = s.src := rfl
@[simp] theorem setRcv_sink : (s.setRcv x).sink = s.sink := rfl
@[simp] theorem setRcv_script : (s.setRcv x).script = s.script := rfl
@[simp] theorem setRcv_adj : (s.setRcv x).adj = s.adj := rfl
@[simp] theorem setRcv_side (e : Role) : (s.setRcv x).side e = s.side e := by cases e <;> rfl
end SetRcv

section SetSrc
variable (s : State) (x : Source)
@[simp] theorem setSrc_snd : (s.setSrc x).snd = s.snd := rfl
@[simp] theorem setSrc_rcv : (s.setSrc x).rcv = s.rcv := rfl
@[simp] theorem setSrc_sndSide : (s.setSrc x).sndSide = s.sndSide := rfl
@[simp] theorem setSrc_rcvSide : (s.setSrc x).rcvSide = s.rcvSide := rfl
@[simp] theorem setSrc_src : (s.setSrc x).src = x := rfl
@[simp] theorem setSrc_sink : (s.setSrc x).sink = s.sink := rfl
@[simp] theorem setSrc_script : (s.setSrc x).script = s.script := rfl
@[simp] theorem setSrc_adj : (s.setSrc x).adj = s.adj := rfl
@[simp] theorem setSrc_side (e : Role) : (s.setSrc x).side e = s.side e := by cases e <;> rfl
end SetSrc

section SetSink
variable (s : State) (x : List Byte)
@[simp] theorem setSink_snd : (s.setSink x).snd = s.snd := rfl
@[simp] theorem setSink_rcv : (s.setSink x).rcv = s.rcv := rfl
@[simp] theorem setSink_sndSide : (s.setSink x).sndSide = s.sndSide := rfl
@[simp] theorem setSink_rcvSide : (s.setSink x).rcvSide = s.rcvSide := rfl
@[simp] theorem setSink_src : (s.setSink x).src = s.src := rfl
@[simp] theorem setSink_sink : (s.setSink x).sink = x := rfl
@[simp] theorem setSink_script : (s.setSink x).script = s.script := rfl
@[simp] theorem setSink_adj : (s.setSink x).adj = s.adj := rfl
@[simp] theorem setSink_side (e : Role) : (s.setSink x).side e = s.side e := by cases e <;> rfl
end SetSink

section SetScript
variable (s : State) (x : List Move)
@[simp] theorem setScript_snd : (s.setScript x).snd = s.snd := rfl
@[simp] theorem setScript_rcv : (s.setScript x).rcv = s.rcv := rfl
@[simp] theorem setScript_sndSide : (s.setScript x).sndSide = s.sndSide := rfl
@[simp] theorem setScript_rcvSide : (s.setScript x).rcvSide = s.rcvSide := rfl
@[simp] theorem setScript_src : (s.setScript x).src = s.src := rfl
@[simp] theorem setScript_sink : (s.setScript x).sink = s.sink := rfl
@[simp] theorem setScript_script : (s.setScript x).script = x := rfl
@[simp] theorem setScript_adj : (s.setScript x).adj = s.adj := rfl
@[simp] theorem setScript_side (e : Role) : (s.setScript x).side e = s.side e := by cases e <;> rfl
end SetScript

section SetSide
variable (s : State) (e : Role) (x : Side)
@[simp] theorem setSide_snd : (s.setSide e x).snd = s.snd := by cases e <;> rfl
@[simp] theorem setSide_rcv : (s.setSide e x).rcv = s.rcv := by cases e <;> rfl
@[simp] theorem setSide_src : (s.setSide e x).src = s.src := by cases e <;> rfl
@[simp] theorem setSide_sink : (s.setSide e x).sink = s.sink := by cases e <;> rfl
@[simp] theorem setSide_script : (s.setSide e x).script = s.script := by cases e <;> rfl
@[simp] theorem setSide_adj : (s.setSide e x).adj = s.adj := by cases e <;> rfl
@[simp] theorem setSide_side_same : (s.setSide e x).side e = x := by cases e <;> rfl
@[simp] theorem setSide_side_peer : (s.setSide e x).side (peer e) = s.side (peer e) := by cases e <;> rfl
@[simp] theorem setSide_peer_side : (s.setSide (peer e) x).side e = s.side e := by cases e <;> rfl
@[simp] theorem setSide_sender_sndSide : (s.setSide .sender x).sndSide = x := rfl
@[simp] theorem setSide_sender_rcvSide : (s.setSide .sender x).rcvSide = s.rcvSide := rfl
@[simp] theorem setSide_receiver_sndSide : (s.setSide .receiver x).sndSide = s.sndSide := rfl
@[simp] theorem setSide_receiver_rcvSide : (s.setSide .receiver x).rcvSide = x := rfl
end SetSide

@[simp] theorem side_sender (s : State) : s.side .sender = s.sndSide := rfl
@[simp] theorem side_receiver (s : State) : s.side .receiver = s.rcvSide := rfl
@[simp] theorem peer_sender : peer .sender = .receiver := rfl
@[simp] theorem peer_receiver : peer .receiver = .sender := rfl

section Phases
variable (s : State)
@[simp] theorem setSndPhase_snd (p : SndPhase) : (s.setSndPhase p).snd = { s.snd with phase := p } := rfl
@[simp] theorem setSndPhase_rcv (p : SndPhase) : (s.setSndPhase p).rcv = s.rcv := rfl
@[simp] theorem setSndPhase_sndSide (p : SndPhase) : (s.setSndPhase p).sndSide = s.sndSide := rfl
@[simp] theorem setSndPhase_rcvSide (p : SndPhase) : (s.setSndPhase p).rcvSide = s.rcvSide := rfl
@[simp] theorem setSndPhase_src (p : SndPhase) : (s.setSndPhase p).src = s.src := rfl
@[simp] theorem setSndPhase_sink (p : SndPhase) : (s.setSndPhase p).sink = s.sink := rfl
@[simp] theorem setSndPhase_script (p : SndPhase) : (s.setSndPhase p).script = s.script := rfl
@[simp] theorem setSndPhase_adj (p : SndPhase) : (s.setSndPhase p).adj = s.adj := rfl
@[simp] theorem setRcvPhase_snd (p : RcvPhase) : (s.setRcvPhase p).snd = s.snd := rfl
@[simp] theorem setRcvPhase_rcv (p : RcvPhase) : (s.setRcvPhase p).rcv = { s.rcv with phase := p } := rfl
@[simp] theorem setRcvPhase_sndSide (p : RcvPhase) : (s.setRcvPhase p).sndSide = s.sndSide := rfl
@[simp] theorem setRcvPhase_rcvSide (p : RcvPhase) : (s.setRcvPhase p).rcvSide = s.rcvSide := rfl
@[simp] theorem setRcvPhase_src (p : RcvPhase) : (s.setRcvPhase p).src = s.src := rfl
@[simp] theorem setRcvPhase_sink (p : RcvPhase) : (s.setRcvPhase p).sink = s.sink := rfl
@[simp] theorem setRcvPhase_script (p : RcvPhase) : (s.setRcvPhase p).script = s.script := rfl
@[simp] theorem setRcvPhase_adj (p : RcvPhase) : (s.setRcvPhase p).adj = s.adj := rfl
end Phases

section Faults
variable (c : FaultCode) (s : State)
@[simp] theorem takeFault_sender_snd :
    (takeFault .sender c s).snd = { s.snd with cause := faultCode c, phase := .fault } := rfl
@[simp] theorem takeFault_sender_rcv : (takeFault .sender c s).rcv = s.rcv := rfl
@[simp] theorem takeFault_receiver_snd : (takeFault .receiver c s).snd = s.snd := rfl
@[simp] theorem takeFault_receiver_rcv :
    (takeFault .receiver c s).rcv = { s.rcv with cause := faultCode c, phase := .fault } := rfl
@[simp] theorem takeFault_side (e e' : Role) : (takeFault e c s).side e' = s.side e' := by cases e <;> cases e' <;> rfl
@[simp] theorem takeFault_sndSide (e : Role) : (takeFault e c s).sndSide = s.sndSide := by cases e <;> rfl
@[simp] theorem takeFault_rcvSide (e : Role) : (takeFault e c s).rcvSide = s.rcvSide := by cases e <;> rfl
@[simp] theorem takeFault_src (e : Role) : (takeFault e c s).src = s.src := by cases e <;> rfl
@[simp] theorem takeFault_sink (e : Role) : (takeFault e c s).sink = s.sink := by cases e <;> rfl
@[simp] theorem takeFault_script (e : Role) : (takeFault e c s).script = s.script := by cases e <;> rfl
@[simp] theorem takeFault_adj (e : Role) : (takeFault e c s).adj = s.adj := by cases e <;> rfl
end Faults

section Resets
variable (s : State)
@[simp] theorem resetEngine_sender_snd : (resetEngine .sender s).snd = senderReset := rfl
@[simp] theorem resetEngine_sender_rcv : (resetEngine .sender s).rcv = s.rcv := rfl
@[simp] theorem resetEngine_receiver_snd : (resetEngine .receiver s).snd = s.snd := rfl
@[simp] theorem resetEngine_receiver_rcv : (resetEngine .receiver s).rcv = receiverReset := rfl
@[simp] theorem resetEngine_sender_sndSide :
    (resetEngine .sender s).sndSide = { s.sndSide with rstAt := none } := rfl
@[simp] theorem resetEngine_sender_rcvSide : (resetEngine .sender s).rcvSide = s.rcvSide := rfl
@[simp] theorem resetEngine_receiver_sndSide : (resetEngine .receiver s).sndSide = s.sndSide := rfl
@[simp] theorem resetEngine_receiver_rcvSide :
    (resetEngine .receiver s).rcvSide = { s.rcvSide with rstAt := none } := rfl
@[simp] theorem resetEngine_src (e : Role) : (resetEngine e s).src = s.src := by cases e <;> rfl
@[simp] theorem resetEngine_sink (e : Role) : (resetEngine e s).sink = s.sink := by cases e <;> rfl
@[simp] theorem resetEngine_script (e : Role) : (resetEngine e s).script = s.script := by cases e <;> rfl
@[simp] theorem resetEngine_adj (e : Role) : (resetEngine e s).adj = s.adj := by cases e <;> rfl
end Resets

section Running
variable {α β : Type}
@[simp] theorem bind_ok (a : α) (s : State) (k : α → State → Res β) : (Res.ok a s).bind k = k a s := rfl
@[simp] theorem bind_stop (s : State) (k : α → State → Res β) : (Res.stop s).bind k = .stop s := rfl
@[simp] theorem bind_halt (f : Fault) (k : α → State → Res β) : (Res.halt f).bind k = .halt f := rfl
@[simp] theorem outcome_ok (a : α) (s : State) : (Res.ok a s).outcome = .next s := rfl
@[simp] theorem outcome_stop (s : State) : (Res.stop s : Res α).outcome = .next s := rfl
@[simp] theorem outcome_halt (f : Fault) : (Res.halt f : Res α).outcome = .fault f := rfl
@[simp] theorem raise_bind (e : Role) (c : FaultCode) (s : State) (k : α → State → Res β) :
    (raise e c s : Res α).bind k = raise e c s := rfl
@[simp] theorem raise_outcome (e : Role) (c : FaultCode) (s : State) :
    (raise e c s : Res α).outcome = .next (takeFault e c s) := rfl
@[simp] theorem onlyWhen_true (m : String) (r : Host.Outcome State Fault Refusal) : onlyWhen true m r = r := rfl
@[simp] theorem onlyWhen_false (m : String) (r : Host.Outcome State Fault Refusal) :
    onlyWhen false m r = .refused (.notSelected m) := rfl

/-- What a sequence that goes on has done. -/
theorem bind_eq_ok {r : Res α} {k : α → State → Res β} {b : β} {t : State} (h : r.bind k = .ok b t) :
    ∃ a u, r = .ok a u ∧ k a u = .ok b t := by
  cases r with
  | ok a u => exact ⟨a, u, rfl, h⟩
  | stop u => cases h
  | halt f => cases h

/-- A row that answers a next state was performed in its context. -/
theorem onlyWhen_eq_next {c : Bool} {m : String} {r : Host.Outcome State Fault Refusal} {t : State}
    (h : onlyWhen c m r = .next t) : c = true ∧ r = .next t := by
  cases c with
  | true => exact ⟨rfl, h⟩
  | false => cases h

/-- An operation without an rst at hand makes its call. -/
theorem external_none {e : Role} {s : State} (k : State → Res α) (h : (s.side e).rstAt = none) :
    external e s k = k s := by
  simp [external, h]

/-- An rst that is due abandons the operation before the call (R280). -/
theorem external_due {e : Role} {s : State} (k : State → Res α) (h : (s.side e).rstAt = some 0) :
    external e s k = .stop (resetEngine e s) := by
  simp [external, h]
end Running

end Sys2Proof.Machine
end

