-- ==== Sys2Proof/Laws/Memory.lean ====
section
/-! SUPPORT. The frame buffer's memory: read after write, and every memory operation keeps the canonical form. -/

namespace Sys2Proof.Machine

/-! ### Read after write -/

theorem memGet_memErase_same (m : Memory) (a : Nat) : memGet (memErase m a) a = 0#8 := by
  induction m with
  | nil => rfl
  | cons c rest ih =>
    by_cases h : c.1 = a
    · simp [memErase, h, ih]
    · simp [memErase, h, memGet, ih]

theorem memGet_memErase_other (m : Memory) {a b : Nat} (hab : b ≠ a) : memGet (memErase m a) b = memGet m b := by
  induction m with
  | nil => rfl
  | cons c rest ih =>
    by_cases h : c.1 = a
    · have hb : c.1 ≠ b := fun hc => hab (hc.symm.trans h)
      rw [memErase, if_pos h, ih, memGet, if_neg hb]
    · rw [memErase, if_neg h, memGet, memGet, ih]

/-- No entry of the memory stands at this offset. -/
def absent (m : Memory) (a : Nat) : Prop := ∀ c ∈ m, c.1 ≠ a

theorem memErase_absent (m : Memory) (a : Nat) : absent (memErase m a) a := by
  induction m with
  | nil => intro c hc; cases hc
  | cons d rest ih =>
    by_cases h : d.1 = a
    · simpa [memErase, h] using ih
    · intro c hc
      simp only [memErase, h, if_false, List.mem_cons] at hc
      rcases hc with rfl | hc
      · exact h
      · exact ih c hc

theorem memGet_memInsert_same (m : Memory) (a : Nat) (v : Byte) (h : absent m a) : memGet (memInsert m a v) a = v := by
  induction m with
  | nil => simp [memInsert, memGet]
  | cons c rest ih =>
    have hc : c.1 ≠ a := h c (by simp)
    by_cases hlt : a < c.1
    · simp [memInsert, hlt, memGet]
    · simp [memInsert, hlt, memGet, hc, ih (fun d hd => h d (by simp [hd]))]

theorem memGet_memInsert_other (m : Memory) {a b : Nat} (v : Byte) (hab : b ≠ a) :
    memGet (memInsert m a v) b = memGet m b := by
  have hab' : a ≠ b := fun h => hab h.symm
  induction m with
  | nil => simp [memInsert, memGet, hab']
  | cons c rest ih =>
    by_cases hlt : a < c.1
    · simp [memInsert, hlt, memGet, hab']
    · rw [memInsert, if_neg hlt, memGet, memGet, ih]

/-- A byte read back at the offset just written. -/
@[simp] theorem memGet_memSet_same (m : Memory) (a : Nat) (v : Byte) : memGet (memSet m a v) a = v := by
  by_cases hv : v = 0#8
  · simp [memSet, hv, memGet_memErase_same]
  · simp [memSet, hv, memGet_memInsert_same _ _ _ (memErase_absent m a)]

/-- A write leaves every other offset alone. -/
theorem memGet_memSet_other (m : Memory) {a b : Nat} (v : Byte) (hab : b ≠ a) : memGet (memSet m a v) b = memGet m b := by
  by_cases hv : v = 0#8
  · simp [memSet, hv, memGet_memErase_other m hab]
  · simp [memSet, hv, memGet_memInsert_other _ v hab, memGet_memErase_other m hab]

/-- Bytes written at rising offsets, read back. -/
theorem memGet_memSetAll (bs : List Byte) (m : Memory) (a b : Nat) :
    memGet (memSetAll m a bs) b = if a ≤ b ∧ b < a + bs.length then bs.getD (b - a) 0#8 else memGet m b := by
  induction bs generalizing m a with
  | nil =>
    have h : ¬(a ≤ b ∧ b < a + ([] : List Byte).length) := by simp
    rw [if_neg h]; rfl
  | cons c rest ih =>
    rw [memSetAll, ih]
    by_cases h1 : a + 1 ≤ b ∧ b < a + 1 + rest.length
    · have h2 : a ≤ b ∧ b < a + (c :: rest).length := by simp only [List.length_cons]; omega
      rw [if_pos h1, if_pos h2]
      obtain ⟨k, hk⟩ : ∃ k, b - a = k + 1 := ⟨b - a - 1, by omega⟩
      have hk' : b - (a + 1) = k := by omega
      rw [hk, hk', List.getD_cons_succ]
    · rw [if_neg h1]
      by_cases hab : b = a
      · subst hab
        simp
      · have h2 : ¬(a ≤ b ∧ b < a + (c :: rest).length) := by simp only [List.length_cons]; omega
        rw [if_neg h2, memGet_memSet_other m c hab]

/-! ### The canonical form -/

/-- The canonical form as one proposition: sorted by address, addresses inside the buffer, no 0x00 listed. -/
theorem memory_wf_iff (m : Memory) :
    Memory.wf m = true ↔ m.Pairwise (fun c d => c.1 < d.1) ∧ ∀ c ∈ m, c.1 < Config.frameBytes ∧ c.2 ≠ 0#8 := by
  have hs : ∀ l : Memory, memSorted l = true ↔ l.Pairwise (fun c d => c.1 < d.1) := by
    intro l
    induction l with
    | nil => simp [memSorted]
    | cons c rest ih =>
      cases rest with
      | nil => simp [memSorted]
      | cons d rest =>
        rw [memSorted, Bool.and_eq_true, ih, decide_eq_true_eq, List.pairwise_cons (a := c)]
        constructor
        · rintro ⟨h1, h2⟩
          refine ⟨fun x hx => ?_, h2⟩
          rcases List.mem_cons.1 hx with rfl | hx
          · exact h1
          · exact lt_trans h1 ((List.pairwise_cons.1 h2).1 x hx)
        · rintro ⟨h1, h2⟩
          exact ⟨h1 d (by simp), h2⟩
  simp only [Memory.wf, Bool.and_eq_true, hs, List.all_eq_true, decide_eq_true_eq, ne_eq, decide_not,
    Bool.not_eq_true', decide_eq_false_iff_not]

theorem memErase_subset (m : Memory) (a : Nat) : ∀ c ∈ memErase m a, c ∈ m := by
  induction m with
  | nil => intro c hc; exact hc
  | cons d rest ih =>
    intro c hc
    by_cases h : d.1 = a
    · rw [memErase, if_pos h] at hc
      exact List.mem_cons_of_mem _ (ih c hc)
    · rw [memErase, if_neg h] at hc
      rcases List.mem_cons.1 hc with rfl | hc
      · simp
      · exact List.mem_cons_of_mem _ (ih c hc)

theorem memErase_pairwise (m : Memory) (a : Nat) (h : m.Pairwise (fun c d => c.1 < d.1)) :
    (memErase m a).Pairwise (fun c d => c.1 < d.1) := by
  induction m with
  | nil => simp [memErase]
  | cons d rest ih =>
    rw [List.pairwise_cons] at h
    by_cases hd : d.1 = a
    · rw [memErase, if_pos hd]; exact ih h.2
    · rw [memErase, if_neg hd, List.pairwise_cons]
      exact ⟨fun c hc => h.1 c (memErase_subset rest a c hc), ih h.2⟩

theorem mem_memInsert (m : Memory) (a : Nat) (v : Byte) : ∀ c ∈ memInsert m a v, c = (a, v) ∨ c ∈ m := by
  induction m with
  | nil => intro c hc; left; simpa [memInsert] using hc
  | cons d rest ih =>
    intro c hc
    by_cases hlt : a < d.1
    · rw [memInsert, if_pos hlt] at hc
      rcases List.mem_cons.1 hc with rfl | hc
      · exact .inl rfl
      · exact .inr hc
    · rw [memInsert, if_neg hlt] at hc
      rcases List.mem_cons.1 hc with rfl | hc
      · exact .inr (by simp)
      · rcases ih c hc with rfl | h
        · exact .inl rfl
        · exact .inr (List.mem_cons_of_mem _ h)

theorem memInsert_pairwise (m : Memory) (a : Nat) (v : Byte) (h : m.Pairwise (fun c d => c.1 < d.1)) (ha : absent m a) :
    (memInsert m a v).Pairwise (fun c d => c.1 < d.1) := by
  induction m with
  | nil => simp [memInsert]
  | cons d rest ih =>
    have hd : d.1 ≠ a := ha d (by simp)
    rw [List.pairwise_cons] at h
    by_cases hlt : a < d.1
    · rw [memInsert, if_pos hlt, List.pairwise_cons, List.pairwise_cons]
      refine ⟨fun c hc => ?_, h⟩
      rcases List.mem_cons.1 hc with rfl | hc
      · exact hlt
      · exact lt_trans hlt (h.1 c hc)
    · rw [memInsert, if_neg hlt, List.pairwise_cons]
      refine ⟨fun c hc => ?_, ih h.2 (fun c hc => ha c (List.mem_cons_of_mem _ hc))⟩
      rcases mem_memInsert rest a v c hc with rfl | hc
      · show d.1 < a
        omega
      · exact h.1 c hc

/-- One byte written inside the buffer keeps the canonical form. -/
theorem memSet_wf (m : Memory) (a : Nat) (v : Byte) (h : Memory.wf m = true) (ha : a < Config.frameBytes) :
    Memory.wf (memSet m a v) = true := by
  rw [memory_wf_iff] at h ⊢
  obtain ⟨hp, hc⟩ := h
  have he := memErase_pairwise m a hp
  by_cases hv : v = 0#8
  · rw [memSet, if_pos hv]
    exact ⟨he, fun c hm => hc c (memErase_subset m a c hm)⟩
  · rw [memSet, if_neg hv]
    refine ⟨memInsert_pairwise _ a v he (memErase_absent m a), fun c hm => ?_⟩
    rcases mem_memInsert _ a v c hm with rfl | hm
    · exact ⟨ha, hv⟩
    · exact hc c (memErase_subset m a c hm)

/-- Bytes written inside the buffer keep the canonical form. -/
theorem memSetAll_wf (bs : List Byte) (m : Memory) (a : Nat) (h : Memory.wf m = true)
    (ha : a + bs.length ≤ Config.frameBytes) : Memory.wf (memSetAll m a bs) = true := by
  induction bs generalizing m a with
  | nil => exact h
  | cons b rest ih =>
    simp only [List.length_cons] at ha
    exact ih _ _ (memSet_wf m a b h (by omega)) (by omega)

/-- A write that answers keeps the canonical form. -/
theorem memWrite_wf {m m' : Memory} {a : Nat} {v : List Byte} (h : Memory.wf m = true) (hw : memWrite m a v = .ok m') :
    Memory.wf m' = true := by
  by_cases hr : a + v.length ≤ Config.frameBytes
  · rw [memWrite, if_pos hr] at hw
    cases hw
    exact memSetAll_wf v m a h hr
  · rw [memWrite, if_neg hr] at hw
    cases hw

/-! ### ENCODE's writes -/

@[simp] theorem encodeFrame_length (f : Frame) : (encodeFrame f).length = 3 + f.payload.length := by
  simp [encodeFrame]; omega

/-- ENCODE's four writes, of a frame whose slot has 30 bytes, are one run of 33 bytes from offset 0 (R120). -/
theorem encodeInto_eq (m : Memory) (f : Frame) (hp : f.payload.length = 30) :
    encodeInto m f = .ok (memSetAll m 0 (encodeFrame f)) := by
  simp [encodeInto, memWrite, hp, Except.bind, encodeFrame, memSetAll, Config.frameBytes]

/-- Reading the whole buffer after ENCODE gives the frame's bytes (R120). -/
theorem memRead_encoded (m : Memory) (f : Frame) (hp : f.payload.length = 30) :
    memRead (memSetAll m 0 (encodeFrame f)) 0 Config.frameBytes = .ok (encodeFrame f) := by
  have hl : (encodeFrame f).length = 33 := by simp [hp]
  simp only [memRead, Nat.zero_add, le_refl, if_true]
  congr 1
  apply List.ext_getElem
  · simp [hl]
  · intro i h1 h2
    rw [hl] at h2
    simp only [List.getElem_map, List.getElem_range, memGet_memSetAll, Nat.zero_add, hl]
    rw [if_pos ⟨Nat.zero_le _, h2⟩, Nat.sub_zero, List.getD_eq_getElem _ _ (by rw [hl]; exact h2)]

theorem frameWf_iff (f : Frame) : frameWf f = true ↔ f.len.toNat ≤ 30 ∧ f.payload.length = 30 := by
  simp [frameWf]

@[simp] theorem frameAck_payload_length (n : Seq) : (frameAck n).payload.length = 30 := by simp [frameAck]
@[simp] theorem frameEotAck_payload_length (n : Seq) : (frameEotAck n).payload.length = 30 := by simp [frameEotAck]
@[simp] theorem frameEot_payload_length (n : Seq) : (frameEot n).payload.length = 30 := by simp [frameEot]

theorem frameData_payload_length (n : Seq) (len : Len) (d : List Byte) (h : d.length ≤ 30) :
    (frameData n len d).payload.length = 30 := by
  simp [frameData, Config.chunkBytes]; omega

end Sys2Proof.Machine
end

