-- ==== Sys2Proof/Laws/Ops.lean ====
section
/-! SUPPORT. What each shared operation can do, said once: `Res.Spec r P Q` says that `r` goes on only as `P` and ends early
only as `Q`, and never stops the model. Later proofs cite these lemmas and unfold no operation. -/

namespace Sys2Proof.Machine

/-- Every way an operation can come out: it goes on with `P`, or it ended early with `Q`; the model does not stop. -/
def Res.Spec {α : Type} (r : Res α) (P : α → State → Prop) (Q : State → Prop) : Prop :=
  match r with
  | .ok a s => P a s
  | .stop s => Q s
  | .halt _ => False

section Specs
variable {α β : Type} {P : α → State → Prop} {Q : State → Prop}

@[simp] theorem spec_ok (a : α) (s : State) : (Res.ok a s).Spec P Q ↔ P a s := Iff.rfl
@[simp] theorem spec_stop (s : State) : (Res.stop s : Res α).Spec P Q ↔ Q s := Iff.rfl
@[simp] theorem spec_raise (e : Role) (c : FaultCode) (s : State) :
    (raise e c s : Res α).Spec P Q ↔ Q (takeFault e c s) := Iff.rfl

theorem spec_mono {P' : α → State → Prop} {Q' : State → Prop} {r : Res α} (h : r.Spec P Q)
    (hP : ∀ a s, P a s → P' a s) (hQ : ∀ s, Q s → Q' s) : r.Spec P' Q' := by
  cases r with
  | ok a s => exact hP a s h
  | stop s => exact hQ s h
  | halt f => exact h

theorem spec_bind {R : β → State → Prop} {r : Res α} {k : α → State → Res β} (h : r.Spec P Q)
    (hk : ∀ a s, P a s → (k a s).Spec R Q) : (r.bind k).Spec R Q := by
  cases r with
  | ok a s => exact hk a s h
  | stop s => exact h
  | halt f => exact h.elim

/-- What a meaning answers, from what its operation can do. -/
theorem spec_outcome {r : Res α} (h : r.Spec P Q) : ∃ t, r.outcome = .next t ∧ ((∃ a, P a t) ∨ Q t) := by
  cases r with
  | ok a s => exact ⟨s, rfl, .inl ⟨a, h⟩⟩
  | stop s => exact ⟨s, rfl, .inr h⟩
  | halt f => exact h.elim

/-- What is true of both ways out is true of the next state. -/
theorem spec_next {G : State → Prop} {r : Res α} (h : r.Spec (fun _ t => G t) G) {t : State}
    (ht : r.outcome = .next t) : G t := by
  cases r with
  | ok a s => cases ht; exact h
  | stop s => cases ht; exact h
  | halt f => exact h.elim
end Specs

theorem counted_self (e : Role) (s : State) : counted e (s.side e).rstAt s = s := by cases e <;> rfl

section Counted
variable (e : Role) (r : Option Nat) (s : State)
@[simp] theorem counted_snd : (counted e r s).snd = s.snd := by simp [counted]
@[simp] theorem counted_rcv : (counted e r s).rcv = s.rcv := by simp [counted]
@[simp] theorem counted_src : (counted e r s).src = s.src := by simp [counted]
@[simp] theorem counted_sink : (counted e r s).sink = s.sink := by simp [counted]
@[simp] theorem counted_script : (counted e r s).script = s.script := by simp [counted]
@[simp] theorem counted_adj : (counted e r s).adj = s.adj := by simp [counted]
@[simp] theorem counted_side : (counted e r s).side e = { s.side e with rstAt := r } := by simp [counted]
@[simp] theorem counted_side_peer : (counted e r s).side (peer e) = s.side (peer e) := by simp [counted]
@[simp] theorem counted_sender_sndSide : (counted .sender r s).sndSide = { s.sndSide with rstAt := r } := rfl
@[simp] theorem counted_sender_rcvSide : (counted .sender r s).rcvSide = s.rcvSide := rfl
@[simp] theorem counted_receiver_sndSide : (counted .receiver r s).sndSide = s.sndSide := rfl
@[simp] theorem counted_receiver_rcvSide : (counted .receiver r s).rcvSide = { s.rcvSide with rstAt := r } := rfl
end Counted

/-- An external call either is made, the rst counter aside, or is preempted by an rst (R280). -/
theorem external_spec {α : Type} {P : α → State → Prop} {Q : State → Prop} {e : Role} {s : State} {k : State → Res α}
    (hk : ∀ r, (k (counted e r s)).Spec P Q) (hr : Q (resetEngine e s)) : (external e s k).Spec P Q := by
  unfold external
  cases h : (s.side e).rstAt with
  | none =>
    have hs : counted e none s = s := by rw [← h, counted_self]
    simpa only [hs] using hk none
  | some n =>
    cases n with
    | zero => exact hr
    | succ n => exact hk (some n)

/-- `Record` appends one event, or an rst preempts it (R78). -/
theorem record_spec (e : Role) (ev : Event) (s : State) :
    (record e ev s).Spec
      (fun _ t => ∃ r, t = (counted e r s).setSide e { (s.side e) with rstAt := r, log := (s.side e).log ++ [ev] })
      (fun t => t = resetEngine e s) := by
  refine external_spec (fun r => ?_) rfl
  exact ⟨r, by simp⟩

/-- Past a chunk of 1 to 30 bytes the cursor moves on by one (R67(a)). -/
theorem srcCursorAfter_good (c : Nat) {d : List Byte} (h1 : 1 ≤ d.length) (h2 : d.length ≤ 30) :
    srcCursorAfter c d = c + 1 := if_pos ⟨h1, h2⟩

/-- Past any other chunk it is the free value (R67(c) and (d); log 17). -/
theorem srcCursorAfter_broken (c : Nat) {d : List Byte} (h : d.length = 0 ∨ 30 < d.length) :
    srcCursorAfter c d = Config.brokenChunkCursor c d := if_neg fun hd => by
  have := hd.2; simp only [Config.chunkBytes] at this; omega

/-- `SrcNext` answers chunk c and moves the cursor, or Exhausted and leaves it (R67). -/
theorem srcNext_spec (s : State) :
    (srcNext s).Spec
      (fun a t => ∃ r,
        (∃ d, s.src.chunks[s.src.cursor]? = some d ∧
          a = .chunk d (s.src.flagsLast && decide (s.src.cursor + 1 = s.src.chunks.length)) ∧
          t = (counted .sender r s).setSrc { s.src with cursor := srcCursorAfter s.src.cursor d }) ∨
        (s.src.chunks[s.src.cursor]? = none ∧ a = .exhausted ∧ t = counted .sender r s))
      (fun t => t = resetEngine .sender s) := by
  refine external_spec (fun r => ?_) rfl
  simp only [counted_src]
  cases h : s.src.chunks[s.src.cursor]? with
  | none => exact ⟨r, .inr ⟨rfl, rfl, rfl⟩⟩
  | some d => exact ⟨r, .inl ⟨d, rfl, rfl, rfl⟩⟩

/-- `SrcSeek(i)` puts the cursor at chunk i (R66). -/
theorem srcSeek_spec (i : Nat) (s : State) :
    (srcSeek i s).Spec (fun _ t => ∃ r, t = (counted .sender r s).setSrc { s.src with cursor := i })
      (fun t => t = resetEngine .sender s) := by
  refine external_spec (fun r => ?_) rfl
  exact ⟨r, by simp⟩

/-- `SinkAppend(d)` appends to the Sink (R77). -/
theorem sinkAppend_spec (d : List Byte) (s : State) :
    (sinkAppend d s).Spec (fun _ t => ∃ r, t = (counted .receiver r s).setSink (s.sink ++ d))
      (fun t => t = resetEngine .receiver s) := by
  refine external_spec (fun r => ?_) rfl
  exact ⟨r, by simp⟩

/-- `s` with other decisions of the outside world about an instance: its rst counter and its send answers. -/
def decided (e : Role) (r : Option Nat) (as : List SendAnswer) (s : State) : State :=
  s.setSide e { s.side e with rstAt := r, answers := as }

/-- `ChSend(b)`: the datagram enters the bag or is lost, or the engine takes CHANNEL_SEND with the datagram in the bag or not, or
an rst preempts it (R69, R71, R244; log 5). -/
theorem chSend_spec (e : Role) (b : Datagram) (s : State) :
    (chSend e b s).Spec
      (fun _ t => ∃ r as, t = deposit e b (decided e r as s) ∨ t = decided e r as s)
      (fun t => t = resetEngine e s ∨ ∃ r as, t = takeFault e .channelSend (deposit e b (decided e r as s)) ∨
        t = takeFault e .channelSend (decided e r as s)) := by
  have hc : ∀ r, counted e r s = decided e r (s.side e).answers s := by intro r; cases e <;> rfl
  have hd : ∀ r as, (counted e r s).setSide e { (counted e r s).side e with answers := as } = decided e r as s := by
    intro r as; cases e <;> rfl
  refine external_spec (fun r => ?_) (.inl rfl)
  simp only [hd]
  cases h : ((counted e r s).side e).answers with
  | nil => exact ⟨r, (s.side e).answers, .inl (by rw [hc])⟩
  | cons a rest =>
    cases a with
    | taken => exact ⟨r, rest, .inl rfl⟩
    | lost => exact ⟨r, rest, .inr rfl⟩
    | error kept =>
      cases kept with
      | true => exact .inr ⟨r, rest, .inl rfl⟩
      | false => exact .inr ⟨r, rest, .inr rfl⟩

/-- ENCODE in an instance, of a frame whose slot has 30 bytes: FB and the result are the frame's bytes (R120). -/
theorem encodeOp_eq (e : Role) (f : Frame) (s : State) (hp : f.payload.length = 30) :
    encodeOp e f s = .ok (encodeFrame f) (encoded e f s) := by
  simp [encodeOp, encodeInto_eq _ f hp, memRead_encoded _ f hp, encoded]

/-- `ChSend(ENCODE(f))`. -/
theorem sendFrame_spec (e : Role) (f : Frame) (s : State) (hp : f.payload.length = 30) :
    (sendFrame e f s).Spec
      (fun _ t => ∃ r as, t = deposit e (encodeFrame f) (decided e r as (encoded e f s)) ∨ t = decided e r as (encoded e f s))
      (fun t => t = resetEngine e (encoded e f s) ∨ ∃ r as,
        t = takeFault e .channelSend (deposit e (encodeFrame f) (decided e r as (encoded e f s))) ∨
        t = takeFault e .channelSend (decided e r as (encoded e f s))) := by
  simp only [sendFrame, encodeOp_eq e f s hp, bind_ok]
  exact chSend_spec e (encodeFrame f) (encoded e f s)

/-- `ChSend(ENCODE(f))` with no rst at hand and no answer planned: the frame is in the bag. -/
theorem sendFrame_clean (e : Role) (f : Frame) (s : State) (hp : f.payload.length = 30) (hr : noRst e s)
    (ha : sendsOk e s) : sendFrame e f s = .ok () (sent e f s) := by
  have hr' : ((encoded e f s).side e).rstAt = none := by simpa [encoded, noRst] using hr
  have ha' : ((encoded e f s).side e).answers = [] := by simpa [encoded, sendsOk] using ha
  simp only [sendFrame, encodeOp_eq e f s hp, bind_ok, chSend, external_none _ hr', ha']
  rfl

/-! ### `encoded`, `sent` and `sendFailed` field by field -/

/-- Two states with equal fields are equal. -/
theorem state_ext {a b : State} (h1 : a.snd = b.snd) (h2 : a.rcv = b.rcv) (h3 : a.sndSide = b.sndSide)
    (h4 : a.rcvSide = b.rcvSide) (h5 : a.src = b.src) (h6 : a.sink = b.sink) (h7 : a.script = b.script)
    (h8 : a.adj = b.adj) : a = b := by
  cases a; cases b; simp_all

section Encoded
variable (e : Role) (f : Frame) (s : State)
@[simp] theorem encoded_snd : (encoded e f s).snd = s.snd := by simp [encoded]
@[simp] theorem encoded_rcv : (encoded e f s).rcv = s.rcv := by simp [encoded]
@[simp] theorem encoded_src : (encoded e f s).src = s.src := by simp [encoded]
@[simp] theorem encoded_sink : (encoded e f s).sink = s.sink := by simp [encoded]
@[simp] theorem encoded_script : (encoded e f s).script = s.script := by simp [encoded]
@[simp] theorem encoded_adj : (encoded e f s).adj = s.adj := by simp [encoded]
@[simp] theorem encoded_side :
    (encoded e f s).side e = { s.side e with fb := memSetAll (s.side e).fb 0 (encodeFrame f) } := by simp [encoded]
@[simp] theorem encoded_side_peer : (encoded e f s).side (peer e) = s.side (peer e) := by simp [encoded]
@[simp] theorem encoded_sender_sndSide :
    (encoded .sender f s).sndSide = { s.sndSide with fb := memSetAll s.sndSide.fb 0 (encodeFrame f) } := by simp [encoded]
@[simp] theorem encoded_sender_rcvSide : (encoded .sender f s).rcvSide = s.rcvSide := by simp [encoded]
@[simp] theorem encoded_receiver_sndSide : (encoded .receiver f s).sndSide = s.sndSide := by simp [encoded]
@[simp] theorem encoded_receiver_rcvSide :
    (encoded .receiver f s).rcvSide = { s.rcvSide with fb := memSetAll s.rcvSide.fb 0 (encodeFrame f) } := by
  simp [encoded]
end Encoded

section Sent
variable (e : Role) (f : Frame) (s : State)
@[simp] theorem sent_snd : (sent e f s).snd = s.snd := by simp [sent]
@[simp] theorem sent_rcv : (sent e f s).rcv = s.rcv := by simp [sent]
@[simp] theorem sent_src : (sent e f s).src = s.src := by simp [sent]
@[simp] theorem sent_sink : (sent e f s).sink = s.sink := by simp [sent]
@[simp] theorem sent_script : (sent e f s).script = s.script := by simp [sent]
@[simp] theorem sent_adj : (sent e f s).adj = s.adj := by simp [sent]
@[simp] theorem sent_sender_sndSide :
    (sent .sender f s).sndSide = { s.sndSide with fb := memSetAll s.sndSide.fb 0 (encodeFrame f) } := by simp [sent]
@[simp] theorem sent_sender_rcvSide :
    (sent .sender f s).rcvSide = { s.rcvSide with inbox := s.rcvSide.inbox ++ [encodeFrame f] } := by simp [sent]
@[simp] theorem sent_receiver_sndSide :
    (sent .receiver f s).sndSide = { s.sndSide with inbox := s.sndSide.inbox ++ [encodeFrame f] } := by simp [sent]
@[simp] theorem sent_receiver_rcvSide :
    (sent .receiver f s).rcvSide = { s.rcvSide with fb := memSetAll s.rcvSide.fb 0 (encodeFrame f) } := by simp [sent]
end Sent

section Passed
variable (e : Role) (f : Frame) (s : State)
@[simp] theorem passed_snd : (passed e f s).snd = s.snd := by simp [passed, answered]
@[simp] theorem passed_rcv : (passed e f s).rcv = s.rcv := by simp [passed, answered]
@[simp] theorem passed_src : (passed e f s).src = s.src := by simp [passed, answered]
@[simp] theorem passed_sink : (passed e f s).sink = s.sink := by simp [passed, answered]
@[simp] theorem passed_script : (passed e f s).script = s.script := by simp [passed, answered]
@[simp] theorem passed_adj : (passed e f s).adj = s.adj := by simp [passed, answered]
end Passed

/-- `ChSend(ENCODE(f))` that the Channel answers with ok: the datagram is in the bag or lost (R69, R71). -/
theorem sendFrame_passed (e : Role) (f : Frame) (s : State) (hp : f.payload.length = 30) (hr : noRst e s)
    (ha : sendOk e s) : sendFrame e f s = .ok () (passed e f s) := by
  have hr' : ((encoded e f s).side e).rstAt = none := by simpa [noRst] using hr
  have hx : ((encoded e f s).side e).answers = (s.side e).answers := by simp
  simp only [sendFrame, encodeOp_eq e f s hp, bind_ok, chSend, external_none _ hr', hx]
  unfold sendOk at ha
  unfold passed answered
  cases h : (s.side e).answers with
  | nil => cases e <;> simp [deposit, peer] <;> (apply state_ext <;> simp_all)
  | cons a rest =>
    rw [h] at ha
    cases a with
    | taken => cases e <;> simp [deposit, peer]
    | lost => cases e <;> simp [peer] <;> (apply state_ext <;> simp_all)
    | error kept => exact absurd rfl (ha kept)

section SendFailed
variable (f : Frame) (kept : Bool) (rest : List SendAnswer) (s : State)
@[simp] theorem sendFailed_sender_snd :
    (sendFailed .sender f kept rest s).snd = { s.snd with cause := 4#4, phase := .fault } := by simp [sendFailed, faultCode]
@[simp] theorem sendFailed_sender_rcv : (sendFailed .sender f kept rest s).rcv = s.rcv := by simp [sendFailed]
@[simp] theorem sendFailed_receiver_snd : (sendFailed .receiver f kept rest s).snd = s.snd := by simp [sendFailed]
@[simp] theorem sendFailed_receiver_rcv :
    (sendFailed .receiver f kept rest s).rcv = { s.rcv with cause := 4#4, phase := .fault } := by simp [sendFailed, faultCode]
@[simp] theorem sendFailed_src (e : Role) : (sendFailed e f kept rest s).src = s.src := by simp [sendFailed]
@[simp] theorem sendFailed_sink (e : Role) : (sendFailed e f kept rest s).sink = s.sink := by simp [sendFailed]
@[simp] theorem sendFailed_script (e : Role) : (sendFailed e f kept rest s).script = s.script := by simp [sendFailed]
@[simp] theorem sendFailed_adj (e : Role) : (sendFailed e f kept rest s).adj = s.adj := by simp [sendFailed]
@[simp] theorem sendFailed_sender_sndSide : (sendFailed .sender f kept rest s).sndSide =
    { s.sndSide with fb := memSetAll s.sndSide.fb 0 (encodeFrame f), answers := rest } := by simp [sendFailed]
@[simp] theorem sendFailed_sender_rcvSide : (sendFailed .sender f kept rest s).rcvSide =
    { s.rcvSide with inbox := s.rcvSide.inbox ++ if kept then [encodeFrame f] else [] } := by simp [sendFailed]
@[simp] theorem sendFailed_receiver_sndSide : (sendFailed .receiver f kept rest s).sndSide =
    { s.sndSide with inbox := s.sndSide.inbox ++ if kept then [encodeFrame f] else [] } := by simp [sendFailed]
@[simp] theorem sendFailed_receiver_rcvSide : (sendFailed .receiver f kept rest s).rcvSide =
    { s.rcvSide with fb := memSetAll s.rcvSide.fb 0 (encodeFrame f), answers := rest } := by simp [sendFailed]
end SendFailed

/-- `ChSend(ENCODE(f))` that answers Error: CHANNEL_SEND, with FB written and the datagram in the bag or not (R244; log 5). -/
theorem sendFrame_failed (e : Role) (f : Frame) (s : State) (kept : Bool) (rest : List SendAnswer)
    (hp : f.payload.length = 30) (hr : noRst e s) (ha : (s.side e).answers = .error kept :: rest) :
    sendFrame e f s = .stop (sendFailed e f kept rest s) := by
  have hr' : ((encoded e f s).side e).rstAt = none := by simpa [noRst] using hr
  have ha' : ((encoded e f s).side e).answers = .error kept :: rest := by simpa using ha
  simp only [sendFrame, encodeOp_eq e f s hp, bind_ok, chSend, external_none _ hr', ha']
  cases kept <;> cases e <;> refine congrArg Res.stop (state_ext ?_ ?_ ?_ ?_ ?_ ?_ ?_ ?_) <;>
    simp [sendFailed, deposit, peer]

/-- `ChSend(ENCODE(f))` with an rst due: the frame is encoded, nothing is sent, the instance is reset (R280; log 15). -/
theorem sendFrame_due (e : Role) (f : Frame) (s : State) (hp : f.payload.length = 30) (h : rstDue e 0 s) :
    sendFrame e f s = .stop (resetEngine e (encoded e f s)) := by
  have h' : ((encoded e f s).side e).rstAt = some 0 := by simpa [rstDue] using h
  simp only [sendFrame, encodeOp_eq e f s hp, bind_ok, chSend, external_due _ h']

/-! ### RESYNC_ADJ -/

@[simp] theorem resyncAdj_nil (a : Count) : resyncAdj [] a = if a = 0#32 then none else some (a - 1#32) := rfl

/-- A table that lists a function at every count of a list agrees with it there (R10). -/
theorem resyncAdj_table (f : Count → Option Count) (l : List Count) {a : Count} (h : a ∈ l) :
    resyncAdj (l.map fun k => (k, f k)) a = f a := by
  induction l with
  | nil => cases h
  | cons k l ih =>
    simp only [List.map_cons, resyncAdj]
    split
    · rename_i hk; rw [hk]
    · rename_i hk; exact ih ((List.mem_cons.1 h).resolve_left fun e => hk e.symm)

/-- RESYNC(n) can do three things: write the corrected count, be the fault RESYNC_UNDERFLOW, be preempted by an rst before its
rewind (R177, R246, R280). -/
theorem resyncBody_spec (n : Seq) (s : State) :
    (resyncBody n s).Spec
      (fun _ t => ∃ a r, resyncAdj s.adj s.snd.ackedCount = some a ∧
        t = ((counted .sender r s).setSrc { s.src with cursor := a.toNat }).setSnd
          { resyncRegs n a s.snd with doNothing := true })
      (fun t => (resyncAdj s.adj s.snd.ackedCount = none ∧ t = takeFault .sender .resyncUnderflow s) ∨
        t = resetEngine .sender s) := by
  unfold resyncBody resyncWith
  cases h : resyncAdj s.adj s.snd.ackedCount with
  | none => exact .inl ⟨rfl, rfl⟩
  | some a =>
    refine spec_bind (spec_mono (srcSeek_spec a.toNat _) (fun _ _ h => h) fun t h => .inr ?_) ?_
    · rw [h]; rfl
    · rintro _ t ⟨r, rfl⟩
      exact ⟨a, r, rfl, rfl⟩

/-- DECODE in an instance: the frame, or the fault of its failed test (R121). -/
theorem decodeOp_ok (e : Role) {b : Datagram} {f : Frame} (s : State) (h : decodeFrame b = .ok f) :
    decodeOp e b s = .ok f (s.setSide e { s.side e with decoded := f }) := by
  simp [decodeOp, h]

theorem decodeOp_error (e : Role) {b : Datagram} {err : FrameError} (s : State) (h : decodeFrame b = .error err) :
    decodeOp e b s = raise e (frameFault err) s := by
  simp [decodeOp, h]

theorem decodeOp_spec (e : Role) (b : Datagram) (s : State) :
    (decodeOp e b s).Spec
      (fun f t => decodeFrame b = .ok f ∧ t = s.setSide e { s.side e with decoded := f })
      (fun t => ∃ err, decodeFrame b = .error err ∧ t = takeFault e (frameFault err) s) := by
  cases h : decodeFrame b with
  | ok f => rw [decodeOp_ok e s h]; exact ⟨rfl, rfl⟩
  | error err => rw [decodeOp_error e s h]; exact ⟨err, rfl, rfl⟩

/-- The frame of a chunk of at most 30 bytes has a slot of 30 bytes (R123). -/
theorem chunkFrame_payload_length (n : Seq) (d : List Byte) (h : d.length ≤ 30) : (chunkFrame n d).payload.length = 30 :=
  frameData_payload_length _ _ _ h

/-- A chunk of the Source as a frame has a slot of 30 bytes (R123). -/
theorem chunk_payload_length (n : Seq) (d : List Byte) (h : ¬ Config.chunkBytes < d.length) :
    (frameData n (BitVec.ofNat 5 d.length) d).payload.length = 30 :=
  frameData_payload_length _ _ _ (by simpa [Config.chunkBytes] using h)

end Sys2Proof.Machine
end

