-- ==== Sys2Proof/Laws/PerInstr.lean ====
section
/-! SUPPORT. The families of per-instruction lemmas. TableMatch: the word the encoder writes for a row carries that row's fixed
bits in spec/opcode_table.json. -/

namespace Sys2Proof.Laws

/-- Bytes 0 to 2 as the table numbers them: byte 0 in bits 23 to 16. -/
def headerBits (l : List Byte) : BitVec 24 :=
  l.getD 0 0#8 ++ l.getD 1 0#8 ++ l.getD 2 0#8

/-- A word carries a frame row's `match` under its `mask`. -/
def frameBits (l : List Byte) (mask fixed : BitVec 24) : Prop :=
  headerBits l &&& mask = fixed

/-- A word carries a LOCAL row's index. -/
def localBits (l : List Byte) (op : Byte) : Prop :=
  l.head? = some op

/-- A frame's header under the mask of a row of its kind (R91). -/
theorem frame_bits (k : Kind) (n : Seq) (len : Len) (p : List Byte) :
    frameBits (encodeFrame { kind := k, seq := n, len := len, payload := p }) 0xFFF8E0#24 (kindCode k ++ 0#16) := by
  have h : ∀ (k : Kind) (n : Seq) (len : Len),
      (kindCode k ++ n.setWidth 8 ++ len.setWidth 8 : BitVec 24) &&& 0xFFF8E0#24 = kindCode k ++ 0#16 := by
    intro k; cases k <;> decide
  exact h k n len

/-- A frame's header under the mask of RCV.OOO, which any kind passes. -/
theorem any_kind_bits (k : Kind) (n : Seq) (len : Len) (p : List Byte) :
    frameBits (encodeFrame { kind := k, seq := n, len := len, payload := p }) 0xFCF8E0#24 0x000000#24 := by
  have h : ∀ (k : Kind) (n : Seq) (len : Len),
      (kindCode k ++ n.setWidth 8 ++ len.setWidth 8 : BitVec 24) &&& 0xFCF8E0#24 = 0x000000#24 := by
    intro k; cases k <;> decide
  exact h k n len

/-- The fixed bits of each row, `mask` and `match` as spec/opcode_table.json has them. -/
def TableMatch.Statement (i : Instr) : Prop :=
  match i with
  | .ack n => frameBits (encode (.ack n)) 0xFFF8E0#24 0x000000#24
  | .data n len d => frameBits (encode (.data n len d)) 0xFFF8E0#24 0x010000#24
  | .eotAck n => frameBits (encode (.eotAck n)) 0xFFF8E0#24 0x020000#24
  | .eot n => frameBits (encode (.eot n)) 0xFFF8E0#24 0x030000#24
  | .ackRx f => frameBits (encode (.ackRx f)) 0xFFF8E0#24 0x000000#24
  | .ackDiscard f => frameBits (encode (.ackDiscard f)) 0xFFF8E0#24 0x000000#24
  | .ackCum f => frameBits (encode (.ackCum f)) 0xFFF8E0#24 0x000000#24
  | .ackLate f => frameBits (encode (.ackLate f)) 0xFFF8E0#24 0x000000#24
  | .ackResync f => frameBits (encode (.ackResync f)) 0xFFF8E0#24 0x000000#24
  | .sndIgnoreData f => frameBits (encode (.sndIgnoreData f)) 0xFFF8E0#24 0x010000#24
  | .sndIgnoreEotAck f => frameBits (encode (.sndIgnoreEotAck f)) 0xFFF8E0#24 0x020000#24
  | .sndIgnoreEot f => frameBits (encode (.sndIgnoreEot f)) 0xFFF8E0#24 0x030000#24
  | .eotAcked f => frameBits (encode (.eotAcked f)) 0xFFF8E0#24 0x020000#24
  | .eotOtherAck f => frameBits (encode (.eotOtherAck f)) 0xFFF8E0#24 0x000000#24
  | .eotOtherData f => frameBits (encode (.eotOtherData f)) 0xFFF8E0#24 0x010000#24
  | .eotOtherEot f => frameBits (encode (.eotOtherEot f)) 0xFFF8E0#24 0x030000#24
  | .rcvData f => frameBits (encode (.rcvData f)) 0xFFF8E0#24 0x010000#24
  | .rcvEot f => frameBits (encode (.rcvEot f)) 0xFFF8E0#24 0x030000#24
  | .rcvOoo k f => frameBits (encode (.rcvOoo k f)) 0xFCF8E0#24 0x000000#24
  | .rcvIgnoreAck f => frameBits (encode (.rcvIgnoreAck f)) 0xFFF8E0#24 0x000000#24
  | .rcvIgnoreEotAck f => frameBits (encode (.rcvIgnoreEotAck f)) 0xFFF8E0#24 0x020000#24
  | .encode e f => localBits (encode (.encode e f)) 0x10#8
  | .decode e b => localBits (encode (.decode e b)) 0x11#8
  | .sndStart => localBits (encode .sndStart) 0x20#8
  | .sndCycle => localBits (encode .sndCycle) 0x21#8
  | .fill => localBits (encode .fill) 0x22#8
  | .txNew => localBits (encode .txNew) 0x23#8
  | .resend => localBits (encode .resend) 0x24#8
  | .txOld j => localBits (encode (.txOld j)) 0x25#8
  | .sndEvent a => localBits (encode (.sndEvent a)) 0x26#8
  | .timeout => localBits (encode .timeout) 0x27#8
  | .resync n => localBits (encode (.resync n)) 0x28#8
  | .eotSend => localBits (encode .eotSend) 0x29#8
  | .eotEvent a => localBits (encode (.eotEvent a)) 0x2A#8
  | .eotTimeout => localBits (encode .eotTimeout) 0x2B#8
  | .rcvStart => localBits (encode .rcvStart) 0x30#8
  | .rcvEvent a => localBits (encode (.rcvEvent a)) 0x31#8
  | .rcvTimeout => localBits (encode .rcvTimeout) 0x32#8
  | .reset e => localBits (encode (.reset e)) 0x3F#8

theorem TableMatch.ack (n : Seq) : Statement (.ack n) :=
  frame_bits .ack n 0#5 _

theorem TableMatch.data (n : Seq) (len : Len) (d : List Byte) : Statement (.data n len d) :=
  frame_bits .data n len _

theorem TableMatch.eotAck (n : Seq) : Statement (.eotAck n) :=
  frame_bits .eotAck n 0#5 _

theorem TableMatch.eot (n : Seq) : Statement (.eot n) :=
  frame_bits .eot n 0#5 _

theorem TableMatch.ackRx (f : Body) : Statement (.ackRx f) :=
  frame_bits .ack f.seq f.len f.payload

theorem TableMatch.ackDiscard (f : Body) : Statement (.ackDiscard f) :=
  frame_bits .ack f.seq f.len f.payload

theorem TableMatch.ackCum (f : Body) : Statement (.ackCum f) :=
  frame_bits .ack f.seq f.len f.payload

theorem TableMatch.ackLate (f : Body) : Statement (.ackLate f) :=
  frame_bits .ack f.seq f.len f.payload

theorem TableMatch.ackResync (f : Body) : Statement (.ackResync f) :=
  frame_bits .ack f.seq f.len f.payload

theorem TableMatch.sndIgnoreData (f : Body) : Statement (.sndIgnoreData f) :=
  frame_bits .data f.seq f.len f.payload

theorem TableMatch.sndIgnoreEotAck (f : Body) : Statement (.sndIgnoreEotAck f) :=
  frame_bits .eotAck f.seq f.len f.payload

theorem TableMatch.sndIgnoreEot (f : Body) : Statement (.sndIgnoreEot f) :=
  frame_bits .eot f.seq f.len f.payload

theorem TableMatch.eotAcked (f : Body) : Statement (.eotAcked f) :=
  frame_bits .eotAck f.seq f.len f.payload

theorem TableMatch.eotOtherAck (f : Body) : Statement (.eotOtherAck f) :=
  frame_bits .ack f.seq f.len f.payload

theorem TableMatch.eotOtherData (f : Body) : Statement (.eotOtherData f) :=
  frame_bits .data f.seq f.len f.payload

theorem TableMatch.eotOtherEot (f : Body) : Statement (.eotOtherEot f) :=
  frame_bits .eot f.seq f.len f.payload

theorem TableMatch.rcvData (f : Body) : Statement (.rcvData f) :=
  frame_bits .data f.seq f.len f.payload

theorem TableMatch.rcvEot (f : Body) : Statement (.rcvEot f) :=
  frame_bits .eot f.seq f.len f.payload

theorem TableMatch.rcvOoo (k : Kind) (f : Body) : Statement (.rcvOoo k f) :=
  any_kind_bits k f.seq f.len f.payload

theorem TableMatch.rcvIgnoreAck (f : Body) : Statement (.rcvIgnoreAck f) :=
  frame_bits .ack f.seq f.len f.payload

theorem TableMatch.rcvIgnoreEotAck (f : Body) : Statement (.rcvIgnoreEotAck f) :=
  frame_bits .eotAck f.seq f.len f.payload

theorem TableMatch.encode (e : Role) (f : Frame) : Statement (.encode e f) := rfl

theorem TableMatch.decode (e : Role) (b : Datagram) : Statement (.decode e b) := rfl

theorem TableMatch.sndStart : Statement .sndStart := rfl

theorem TableMatch.sndCycle : Statement .sndCycle := rfl

theorem TableMatch.fill : Statement .fill := rfl

theorem TableMatch.txNew : Statement .txNew := rfl

theorem TableMatch.resend : Statement .resend := rfl

theorem TableMatch.txOld (j : BitVec 3) : Statement (.txOld j) := rfl

theorem TableMatch.sndEvent (a : Answer) : Statement (.sndEvent a) := rfl

theorem TableMatch.timeout : Statement .timeout := rfl

theorem TableMatch.resync (n : Seq) : Statement (.resync n) := rfl

theorem TableMatch.eotSend : Statement .eotSend := rfl

theorem TableMatch.eotEvent (a : Answer) : Statement (.eotEvent a) := rfl

theorem TableMatch.eotTimeout : Statement .eotTimeout := rfl

theorem TableMatch.rcvStart : Statement .rcvStart := rfl

theorem TableMatch.rcvEvent (a : Answer) : Statement (.rcvEvent a) := rfl

theorem TableMatch.rcvTimeout : Statement .rcvTimeout := rfl

theorem TableMatch.reset (e : Role) : Statement (.reset e) := rfl

end Sys2Proof.Laws
end

