-- ==== Sys2Proof/Tests/Slice0.lean ====
section
/-! SUPPORT. The author's own tests. Expected values are vectors V1 to V76 of spec/95_test_vectors.md, or written out by hand from
the rule a name or comment cites; then one witness for the hypotheses of every statement. -/

namespace Sys2Proof.Tests

open Sys2Proof.Machine

/-! ### Helpers -/

/-- The state a step or a meaning goes on to, if it does. -/
def next? (o : Host.Outcome State Machine.Fault Refusal) : Option State :=
  match o with
  | .next s => some s
  | .fault _ => none
  | .refused _ => none

/-- The name a step or a meaning is refused by, if it is. -/
def refusal? (o : Host.Outcome State Machine.Fault Refusal) : Option Refusal :=
  match o with
  | .next _ => none
  | .fault _ => none
  | .refused r => some r

/-- A link whose SND has these registers. -/
def linkS (sn : Sender) : State := { State.reset with snd := sn }

/-- A link whose RCV waits for this number. -/
def linkR (n : Seq) : State := { State.reset with rcv := { phase := .wait, expectedSeq := n, cause := 0#4 } }

/-- SND in a phase, all else as at reset. -/
def at_ (p : SndPhase) : Sender := { senderReset with phase := p }

/-- SND with a window: `base/nextSeq/outstanding`, the entries, `sent` and `acked`. -/
def win (p : SndPhase) (b n o : BitVec 3) (fl : List Entry) (sent acked : Count) : Sender :=
  { senderReset with
    phase := p, base := b, nextSeq := n, outstanding := o, inFlight := fl, sentCount := sent, ackedCount := acked }

/-- An entry of the window. -/
def en (n : Seq) (k : Count) : Entry := { seq := n, off := k }

/-- A control frame's fields: length 0 and 30 zero bytes. -/
def ctl (n : Seq) : Body := { seq := n, len := 0#5, payload := zeros 30 }

/-- The 33 bytes of a frame with this header and payload start. -/
def wire (k n l : Byte) (p : List Byte) : Datagram := k :: n :: l :: (p ++ zeros (30 - p.length))

/-- A Source of so many one-byte chunks. -/
def srcOf (n : Nat) (fl : Bool) : Source := { chunks := List.replicate n [0x41#8], cursor := 0, flagsLast := fl }

/-- Chunk 0 of the test data of 95_test_vectors.md. -/
def chunk0 : List Byte :=
  [0x01#8, 0x08#8, 0x0f#8, 0x16#8, 0x1d#8, 0x24#8, 0x2b#8, 0x32#8, 0x39#8, 0x40#8, 0x47#8, 0x4e#8, 0x55#8, 0x5c#8, 0x63#8] ++
  [0x6a#8, 0x71#8, 0x78#8, 0x7f#8, 0x86#8, 0x8d#8, 0x94#8, 0x9b#8, 0xa2#8, 0xa9#8, 0xb0#8, 0xb7#8, 0xbe#8, 0xc5#8, 0xcc#8]

/-- The first 12 bytes of chunk 2. -/
def chunk2 : List Byte :=
  [0xa5#8, 0xac#8, 0xb3#8, 0xba#8, 0xc1#8, 0xc8#8, 0xcf#8, 0xd6#8, 0xdd#8, 0xe4#8, 0xeb#8, 0xf2#8]

/-! ### WellFormed: each check refuses an ill-formed term -/

theorem test_wf_frame_length_31 : instrWf (.encode .sender { frameAck 0#3 with len := 31#5 }) = false := by decide
theorem test_wf_frame_slot_29 : instrWf (.encode .sender { frameAck 0#3 with payload := zeros 29 }) = false := by decide
theorem test_wf_body_length_31 : instrWf (.ackRx { ctl 0#3 with len := 31#5 }) = false := by decide
theorem test_wf_body_slot_31 : instrWf (.rcvData { ctl 0#3 with payload := zeros 31 }) = false := by decide
theorem test_wf_data_length_31 : instrWf (.data 0#3 31#5 (zeros 31)) = false := by decide
theorem test_wf_data_bytes : instrWf (.data 0#3 3#5 (zeros 2)) = false := by decide
theorem test_wf_txold_index_7 : instrWf (.txOld 7#3) = false := by decide
theorem test_wf_datagram_65536 : instrWf (.decode .sender (zeros 65536)) = false := by
  simp [instrWf, datagramWf]
theorem test_wf_answer_65536 : instrWf (.sndEvent (.buffer (zeros 65536))) = false := by
  simp [instrWf, answerWf, datagramWf]
theorem test_wf_accepts : instrWf (.data 0#3 30#5 chunk0) = true ∧ instrWf (.txOld 6#3) = true := by decide

/-! ### Decoding: words written out from R91, R92 and R99 -/

theorem test_decode_ack_V1 : decode (wire 0x00#8 0x00#8 0x00#8 []) = .ok (.ack 0#3) := by decide
theorem test_decode_data_V5 :
    decode (wire 0x01#8 0x02#8 0x03#8 [0x41#8, 0x42#8, 0x43#8]) = .ok (.data 2#3 3#5 [0x41#8, 0x42#8, 0x43#8]) := by decide
theorem test_decode_eotack_V3 : decode (wire 0x02#8 0x03#8 0x00#8 []) = .ok (.eotAck 3#3) := by decide
theorem test_decode_eot_V4 : decode (wire 0x03#8 0x03#8 0x00#8 []) = .ok (.eot 3#3) := by decide
theorem test_decode_ackrx_V2 : decodeIn .sndWait (wire 0x00#8 0x07#8 0x00#8 []) = .ok (.ackRx (ctl 7#3)) := by decide
theorem test_decode_ack_discard : decodeIn (.sndAck .discard) (wire 0x00#8 0x05#8 0x00#8 []) = .ok (.ackDiscard (ctl 5#3)) := by decide
theorem test_decode_ack_cum : decodeIn (.sndAck .cum) (wire 0x00#8 0x06#8 0x00#8 []) = .ok (.ackCum (ctl 6#3)) := by decide
theorem test_decode_ack_late : decodeIn (.sndAck .late) (wire 0x00#8 0x03#8 0x00#8 []) = .ok (.ackLate (ctl 3#3)) := by decide
theorem test_decode_ack_resync : decodeIn (.sndAck .resync) (wire 0x00#8 0x02#8 0x00#8 []) = .ok (.ackResync (ctl 2#3)) := by decide
theorem test_decode_snd_ignore_data : decodeIn .sndWait (wire 0x01#8 0x04#8 0x00#8 []) = .ok (.sndIgnoreData (ctl 4#3)) := by decide
theorem test_decode_snd_ignore_eotack : decodeIn .sndWait (wire 0x02#8 0x03#8 0x00#8 []) = .ok (.sndIgnoreEotAck (ctl 3#3)) := by decide
theorem test_decode_snd_ignore_eot : decodeIn .sndWait (wire 0x03#8 0x01#8 0x00#8 []) = .ok (.sndIgnoreEot (ctl 1#3)) := by decide
theorem test_decode_eot_acked : decodeIn .sndEotWait (wire 0x02#8 0x06#8 0x00#8 []) = .ok (.eotAcked (ctl 6#3)) := by decide
theorem test_decode_eot_other_ack : decodeIn .sndEotWait (wire 0x00#8 0x01#8 0x00#8 []) = .ok (.eotOtherAck (ctl 1#3)) := by decide
theorem test_decode_eot_other_data : decodeIn .sndEotWait (wire 0x01#8 0x00#8 0x00#8 []) = .ok (.eotOtherData (ctl 0#3)) := by decide
theorem test_decode_eot_other_eot : decodeIn .sndEotWait (wire 0x03#8 0x07#8 0x00#8 []) = .ok (.eotOtherEot (ctl 7#3)) := by decide
theorem test_decode_rcv_data : decodeIn (.rcvWait 4#3) (wire 0x01#8 0x04#8 0x00#8 []) = .ok (.rcvData (ctl 4#3)) := by decide
theorem test_decode_rcv_eot : decodeIn (.rcvWait 3#3) (wire 0x03#8 0x03#8 0x00#8 []) = .ok (.rcvEot (ctl 3#3)) := by decide
theorem test_decode_rcv_ooo : decodeIn (.rcvWait 1#3) (wire 0x03#8 0x02#8 0x00#8 []) = .ok (.rcvOoo .eot (ctl 2#3)) := by decide
theorem test_decode_rcv_ignore_ack : decodeIn (.rcvWait 0#3) (wire 0x00#8 0x00#8 0x00#8 []) = .ok (.rcvIgnoreAck (ctl 0#3)) := by decide
theorem test_decode_rcv_ignore_eotack : decodeIn (.rcvWait 5#3) (wire 0x02#8 0x05#8 0x00#8 []) = .ok (.rcvIgnoreEotAck (ctl 5#3)) := by decide
theorem test_decode_encode :
    decode (0x10#8 :: 0x01#8 :: wire 0x02#8 0x03#8 0x00#8 []) = .ok (.encode .receiver (frameEotAck 3#3)) := by decide
theorem test_decode_decode :
    decode [0x11#8, 0x00#8, 0x02#8, 0x00#8, 0xAA#8, 0xBB#8] = .ok (.decode .sender [0xAA#8, 0xBB#8]) := by decide
theorem test_decode_snd_event :
    decode [0x26#8, 0x02#8, 0x01#8, 0x00#8, 0xAA#8] = .ok (.sndEvent (.buffer [0xAA#8])) := by decide
theorem test_decode_20 : decode [0x20#8] = .ok .sndStart := by decide
theorem test_decode_21 : decode [0x21#8] = .ok .sndCycle := by decide
theorem test_decode_22 : decode [0x22#8] = .ok .fill := by decide
theorem test_decode_23 : decode [0x23#8] = .ok .txNew := by decide
theorem test_decode_24 : decode [0x24#8] = .ok .resend := by decide
theorem test_decode_27 : decode [0x27#8] = .ok .timeout := by decide
theorem test_decode_29 : decode [0x29#8] = .ok .eotSend := by decide
theorem test_decode_2B : decode [0x2B#8] = .ok .eotTimeout := by decide
theorem test_decode_30 : decode [0x30#8] = .ok .rcvStart := by decide
theorem test_decode_32 : decode [0x32#8] = .ok .rcvTimeout := by decide
theorem test_decode_25 : decode [0x25#8, 0x06#8] = .ok (.txOld 6#3) := by decide
theorem test_decode_28 : decode [0x28#8, 0x05#8] = .ok (.resync 5#3) := by decide
theorem test_decode_2A : decode [0x2A#8, 0x00#8] = .ok (.eotEvent .timeout) := by decide
theorem test_decode_31 : decode [0x31#8, 0x01#8] = .ok (.rcvEvent .error) := by decide
theorem test_decode_3F : decode [0x3F#8, 0x01#8] = .ok (.reset .receiver) := by decide
theorem test_decode_rejects_kind_4 : decode (wire 0x04#8 0x00#8 0x00#8 []) = .error .noSuchOp := by decide
theorem test_decode_rejects_op_33 : decode [0x33#8] = .error .noSuchOp := by decide
theorem test_decode_rejects_V13 : decodeIn .sndWait (wire 0x00#8 0x08#8 0x00#8 []) = .error (.frame .seq) := by decide
theorem test_decode_rejects_V14 : decodeIn .sndWait (wire 0x01#8 0x00#8 0x1F#8 []) = .error (.frame .len) := by decide
theorem test_decode_rejects_V12 : decodeIn (.rcvWait 0#3) (wire 0x04#8 0x00#8 0x00#8 []) = .error (.frame .kind) := by decide
/-- V17: the length is tested first. -/
theorem test_decode_rejects_V17 : decodeIn .sndWait (List.replicate 10 0xFF#8) = .error (.frame .short) := by decide
theorem test_decode_rejects_branch_of_data :
    decodeIn (.sndAck .cum) (wire 0x01#8 0x00#8 0x00#8 []) = .error .wrongReader := by decide
theorem test_decode_rejects_index_7 : decode [0x25#8, 0x07#8] = .error .badOperand := by decide
/-- The table's numbering: byte 0 in bits 23 to 16 of a frame row, the index in bits 7 to 0 of a LOCAL row. -/
theorem test_table_words :
    decodeTableWord 24 0x020300 = some (.eotAck 3#3) ∧ decodeTableWord 8 0x28 = some (.resync 0#3) := by decide
theorem test_fetch_word_runs :
    (next? (step (State.reset.withFetchWord 8 0x29))).map (fun t => (t.snd.phase, t.rcvSide.inbox)) =
      some (.eotWait, [wire 0x03#8 0x00#8 0x00#8 []]) := by decide

/-! ### The CODEC (V2, V6, V7, V8 to V16) -/

theorem test_ack_V2 :
    (next? (exec (.ack 7#3) State.reset)).map (fun t => memRead t.rcvSide.fb 0 33) =
      some (.ok (wire 0x00#8 0x07#8 0x00#8 [])) := by decide
theorem test_data_V7 :
    (next? (exec (.data 7#3 1#5 [0xFF#8]) State.reset)).map (fun t => memRead t.sndSide.fb 0 33) =
      some (.ok (wire 0x01#8 0x07#8 0x01#8 [0xFF#8])) := by decide
theorem test_data_bad_length : refusal? (exec (.data 0#3 31#5 (zeros 31)) State.reset) = some (.illFormed "Data") := by decide
theorem test_eotack_V3 :
    (next? (exec (.eotAck 3#3) State.reset)).map (fun t => memRead t.rcvSide.fb 0 33) =
      some (.ok (wire 0x02#8 0x03#8 0x00#8 [])) := by decide
theorem test_eot_V4 :
    (next? (exec (.eot 3#3) State.reset)).map (fun t => memRead t.sndSide.fb 0 33) =
      some (.ok (wire 0x03#8 0x03#8 0x00#8 [])) := by decide
/-- V6, into a buffer that held V7. -/
theorem test_encode_V6 :
    ((next? (exec (.data 7#3 1#5 [0xFF#8]) State.reset)).bind fun s =>
      next? (exec (.encode .sender (frameData 0#3 30#5 chunk0)) s)).map (fun t => memRead t.sndSide.fb 0 33) =
      some (.ok (0x01#8 :: 0x00#8 :: 0x1E#8 :: chunk0)) := by decide
/-- V11: byte 33 is ignored. -/
theorem test_decode_V11 :
    (next? (exec (.decode .receiver (wire 0x02#8 0x03#8 0x00#8 [] ++ [0xAA#8])) (linkR 0#3))).map (fun t => t.rcvSide.decoded) =
      some (frameEotAck 3#3) := by decide
theorem test_decode_V14 :
    (next? (exec (.decode .sender (wire 0x01#8 0x00#8 0x1F#8 [])) (linkS (at_ .wait)))).map
      (fun t => (t.snd.cause, t.snd.phase)) = some (2#4, .fault) := by decide

/-! ### The sender's cycle (V20 to V29, V50, V72, V76) -/

theorem test_snd_start_V20 :
    (next? (exec .sndStart State.reset)).map (fun t => t.snd) = some { senderReset with phase := .cycle } := by decide
theorem test_snd_start_V75 : (next? (exec .sndStart (linkS (at_ .fault)))).map (fun t => t.snd) = some (at_ .fault) := by decide
theorem test_cycle_V21 :
    (next? (exec .sndCycle { linkS (at_ .cycle) with src := srcOf 20 true })).map
        (fun t => (t.snd.nextSeq, t.snd.outstanding, t.snd.sentCount, t.snd.srcDone, t.snd.phase, t.src.cursor)) =
      some (7#3, 7#3, 7#32, false, .wait, 7) := by decide
theorem test_cycle_V24 :
    (next? (exec .sndCycle (linkS (at_ .cycle)))).map (fun t => (t.snd, t.rcvSide.inbox)) =
      some ({ at_ .wait with srcDone := true }, []) := by decide
/-- V22: `isLast` on the third chunk. -/
theorem test_fill_V22 :
    (next? (exec .fill { linkS (at_ .cycle) with src := srcOf 3 true })).map
        (fun t => (t.snd.inFlight, t.snd.srcDone, t.rcvSide.inbox.map (fun b => b.take 4))) =
      some ([en 0#3 0#32, en 1#3 1#32, en 2#3 2#32], true,
        [[1#8, 0#8, 1#8, 0x41#8], [1#8, 1#8, 1#8, 0x41#8], [1#8, 2#8, 1#8, 0x41#8]]) := by decide
/-- V72: Error on the third frame of a FILL. -/
theorem test_fill_V72 :
    (next? (exec .fill { linkS (at_ .cycle) with
        src := srcOf 20 true, sndSide := { sideReset with answers := [.taken, .taken, .error false] } })).map
        (fun t => (t.snd.cause, t.snd.outstanding, t.snd.sentCount, t.src.cursor, t.rcvSide.inbox.length)) =
      some (4#4, 2#3, 2#32, 3, 2) := by decide
/-- The same with the datagram in the bag although its send answered Error, which R69 leaves open (log 5). -/
theorem test_fill_V72_kept :
    (next? (exec .fill { linkS (at_ .cycle) with
        src := srcOf 20 true, sndSide := { sideReset with answers := [.taken, .taken, .error true] } })).map
        (fun t => (t.snd.cause, t.snd.outstanding, t.snd.sentCount, t.src.cursor, t.rcvSide.inbox.length)) =
      some (4#4, 2#3, 2#32, 3, 3) := by decide
theorem test_txnew_V26 :
    (next? (exec .txNew { linkS (win .cycle 5#3 7#3 2#3 [en 5#3 13#32, en 6#3 14#32] 15#32 13#32) with
        src := { srcOf 20 true with cursor := 15 } })).map
        (fun t => (t.snd.inFlight, t.snd.outstanding, t.snd.nextSeq, t.snd.sentCount)) =
      some ([en 5#3 13#32, en 6#3 14#32, en 7#3 15#32], 3#3, 0#3, 16#32) := by decide
theorem test_txnew_V76 :
    (next? (exec .txNew { linkS { at_ .cycle with sentCount := 4294967295#32 } with src := srcOf 1 false })).map
        (fun t => (t.snd.cause, t.src.cursor, t.rcvSide.inbox)) = some (7#4, 1, []) := by decide
/-- V27, RESEND alone: two frames again, the cursor at `sentCount`. -/
theorem test_resend_V27 :
    (next? (exec .resend { linkS { win .cycle 1#3 3#3 2#3 [en 1#3 1#32, en 2#3 2#32] 3#32 1#32 with
        srcDone := true, resend := true } with src := srcOf 3 true })).map
        (fun t => (t.snd.resend, t.snd.inFlight, t.src.cursor, t.rcvSide.inbox.map (fun b => b.take 2))) =
      some (false, [en 1#3 1#32, en 2#3 2#32], 3, [[1#8, 1#8], [1#8, 2#8]]) := by decide
/-- R146: the second entry of V27's window. -/
theorem test_txold_second :
    (next? (exec (.txOld 1#3) { linkS { win .cycle 1#3 3#3 2#3 [en 1#3 1#32, en 2#3 2#32] 3#32 1#32 with
        srcDone := true, resend := true } with src := srcOf 3 true })).map
        (fun t => (t.src.cursor, t.rcvSide.inbox.map (fun b => b.take 2))) = some (3, [[1#8, 2#8]]) := by decide
theorem test_eot_send_V50 :
    (next? (exec .eotSend (linkS { win .cycle 3#3 3#3 0#3 [] 3#32 3#32 with srcDone := true, sendEot := true }))).map
        (fun t => (t.snd.phase, t.snd.sendEot, t.rcvSide.inbox)) = some (.eotWait, true, [wire 3#8 3#8 0#8 []]) := by decide

/-! ### The sender's events (V30 to V39c, V70) -/

def fl7 : List Entry :=
  [en 0#3 0#32, en 1#3 1#32, en 2#3 2#32, en 3#3 3#32, en 4#3 4#32, en 5#3 5#32, en 6#3 6#32]

theorem test_snd_event_V30 :
    (next? (exec (.sndEvent .timeout) (linkS (win .wait 0#3 7#3 7#3 fl7 7#32 0#32)))).map (fun t => t.snd) =
      some { win .cycle 0#3 7#3 7#3 fl7 7#32 0#32 with resend := true } := by decide
theorem test_snd_event_V70 :
    (next? (exec (.sndEvent (.buffer (zeros 20))) (linkS (at_ .wait)))).map (fun t => t.snd) =
      some { at_ .fault with cause := 1#4 } := by decide
theorem test_timeout_V31 :
    (next? (exec .timeout (linkS { win .wait 3#3 3#3 0#3 [] 3#32 3#32 with srcDone := true }))).map
      (fun t => (t.snd.sendEot, t.snd.doNothing, t.snd.resend)) = some (true, false, false) := by decide
theorem test_timeout_V31b :
    (next? (exec .timeout (linkS { win .wait 2#3 2#3 0#3 [] 2#32 2#32 with doNothing := true }))).map
      (fun t => (t.snd.sendEot, t.snd.doNothing, t.snd.resend)) = some (false, false, false) := by decide
def s32 : State :=
  linkS (win .wait 6#3 2#3 4#3 [en 6#3 14#32, en 7#3 15#32, en 0#3 16#32, en 1#3 17#32] 18#32 14#32)
theorem test_ack_V32 :
    (next? (exec (.ackRx (ctl 0#3)) s32)).map (fun t => (t.snd, t.sndSide.log)) =
      some (win .wait 1#3 2#3 1#3 [en 1#3 17#32] 18#32 17#32, [.ackRx 0#3]) := by decide
/-- V38: the underflow fault, with the log already written. -/
theorem test_ack_V38 :
    (next? (exec (.ackRx (ctl 7#3)) (linkS (win .wait 0#3 7#3 7#3 fl7 7#32 0#32)))).map (fun t => (t.snd, t.sndSide.log)) =
      some ({ win .fault 0#3 7#3 7#3 fl7 7#32 0#32 with cause := 6#4 }, [.ackRx 7#3]) := by decide
theorem test_ack_discard_V39 :
    (next? (exec (.ackDiscard (ctl 5#3)) (linkS { win .wait 2#3 2#3 0#3 [] 2#32 2#32 with doNothing := true }))).map
      (fun t => (t.snd.doNothing, t.sndSide.log)) = some (true, []) := by decide
theorem test_ack_cum_V33 :
    (next? (exec (.ackCum (ctl 6#3)) (linkS (win .wait 0#3 7#3 7#3 fl7 7#32 0#32)))).map (fun t => t.snd) =
      some (win .wait 7#3 7#3 0#3 [] 7#32 7#32) := by decide
def s34 : State := linkS { win .wait 1#3 3#3 2#3 [en 1#3 1#32, en 2#3 2#32] 3#32 1#32 with srcDone := true }
theorem test_ack_late_V34 :
    (next? (exec (.ackLate (ctl 3#3)) s34)).map (fun t => (t.snd.base, t.snd.outstanding, t.snd.inFlight, t.snd.ackedCount)) =
      some (3#3, 0#3, [], 3#32) := by decide
def s36 : State :=
  linkS { win .wait 3#3 1#3 6#3 [en 3#3 3#32, en 4#3 4#32, en 5#3 5#32, en 6#3 6#32, en 7#3 7#32, en 0#3 8#32] 9#32 3#32 with
    srcDone := true }
theorem test_ack_resync_V36 :
    (next? (exec (.ackResync (ctl 2#3)) s36)).map (fun t => (t.snd, t.src.cursor)) =
      some ({ win .wait 2#3 2#3 0#3 [] 2#32 2#32 with doNothing := true }, 2) := by decide
/-- The link of V36 with another RESYNC_ADJ (R10): no decrement at 3, defined at 0, not defined at 9. -/
def sAdj : State := { s36 with adj := [(3#32, some 3#32), (0#32, some 0#32), (9#32, none)] }
theorem test_resync_other_correction :
    (next? (exec (.ackResync (ctl 2#3)) sAdj)).map (fun t => (t.snd, t.src.cursor)) =
      some ({ win .wait 2#3 2#3 0#3 [] 3#32 3#32 with doNothing := true }, 3) := by decide
theorem test_resync_V37 :
    (next? (exec (.resync 0#3) (linkS { win .wait 1#3 4#3 3#3 [en 1#3 1#32, en 2#3 2#32, en 3#3 3#32] 4#32 1#32 with
        srcDone := true }))).map (fun t => (t.snd, t.src.cursor)) =
      some ({ win .wait 0#3 0#3 0#3 [] 0#32 0#32 with doNothing := true }, 0) := by decide
theorem test_snd_ignore_V39b :
    (next? (exec (.sndEvent (.buffer (wire 2#8 3#8 0#8 []))) (linkS (at_ .wait)))).map (fun t => (t.snd, t.sndSide.log)) =
      some (at_ .cycle, []) := by decide
theorem test_snd_ignore_rows :
    (next? (exec (.sndIgnoreData (ctl 1#3)) s34)) = some s34 ∧ (next? (exec (.sndIgnoreEotAck (ctl 1#3)) s34)) = some s34 ∧
    (next? (exec (.sndIgnoreEot (ctl 1#3)) s34)) = some s34 := by decide

/-! ### The handshake (V52 to V55) -/

theorem test_eot_acked_V52 :
    (next? (exec (.eotAcked (ctl 6#3)) (linkS { win .eotWait 3#3 3#3 0#3 [] 3#32 3#32 with srcDone := true, sendEot := true }))).map
      (fun t => (t.snd.phase, t.snd.sendEot, t.sndSide.log)) = some (.done, true, [.eotAckRx 6#3]) := by decide
def s54 : State := linkS { win .eotWait 2#3 2#3 0#3 [] 2#32 2#32 with srcDone := true, sendEot := true }
theorem test_eot_event_V54 :
    (next? (exec (.eotEvent (.buffer (wire 0#8 1#8 0#8 []))) s54)).map (fun t => (t.snd, t.src.cursor, t.sndSide.log)) =
      some ({ win .cycle 1#3 1#3 0#3 [] 1#32 1#32 with doNothing := true }, 1, []) := by decide
theorem test_eot_other_data_V55 :
    (next? (exec (.eotOtherData { ctl 0#3 with len := 1#5 }) (linkS { at_ .eotWait with srcDone := true, sendEot := true }))).map
      (fun t => (t.snd.cause, t.snd.sendEot)) = some (6#4, true) := by decide
theorem test_eot_other_rows :
    next? (exec (.eotOtherAck (ctl 1#3)) s54) = next? (exec (.eotOtherEot (ctl 1#3)) s54) ∧
    (next? (exec (.eotOtherEot (ctl 1#3)) s54)).map (fun t => t.snd.phase) = some .cycle := by decide
theorem test_eot_timeout_V53 :
    (next? (exec .eotTimeout s54)).map (fun t => (t.snd.phase, t.snd.sendEot)) = some (.cycle, true) := by decide

/-! ### The receiver (V60 to V73) -/

theorem test_rcv_start : (next? (exec .rcvStart State.reset)).map (fun t => t.rcv.phase) = some .wait := by decide
theorem test_rcv_data_V61 :
    (next? (exec (.rcvData { seq := 2#3, len := 12#5, payload := chunk2 ++ zeros 18 }) (linkR 2#3))).map
        (fun t => (t.sink, t.rcvSide.log, t.sndSide.inbox, t.rcv.expectedSeq)) =
      some (chunk2, [.dataRx 2#3], [wire 0#8 2#8 0#8 []], 3#3) := by decide
/-- V73: Error on the reply. -/
theorem test_rcv_data_V73 :
    (next? (exec (.rcvData { seq := 7#3, len := 30#5, payload := chunk0 })
        { linkR 7#3 with rcvSide := { sideReset with answers := [.error false] } })).map
        (fun t => (t.sink, t.rcvSide.log, t.rcv.expectedSeq, t.rcv.cause)) = some (chunk0, [.dataRx 7#3], 7#3, 4#4) := by decide
theorem test_rcv_event_V62 :
    (next? (exec (.rcvEvent (.buffer (wire 1#8 7#8 30#8 chunk0))) (linkR 7#3))).map
        (fun t => (t.rcv.expectedSeq, t.sndSide.inbox)) = some (0#3, [wire 0#8 7#8 0#8 []]) := by decide
theorem test_rcv_event_V71 :
    (next? (exec (.rcvEvent (.buffer (wire 5#8 0#8 0#8 []))) (linkR 0#3))).map
        (fun t => (t.rcv.cause, t.rcv.phase, t.sndSide.inbox)) = some (2#4, .fault, []) := by decide
theorem test_rcv_ooo_V68 :
    (next? (exec (.rcvOoo .ack (ctl 5#3)) (linkR 0#3))).map (fun t => (t.rcv.expectedSeq, t.sink, t.rcvSide.log, t.sndSide.inbox)) =
      some (0#3, [], [], [wire 0#8 0#8 0#8 []]) := by decide
theorem test_rcv_eot_V65 :
    (next? (exec (.rcvEot (ctl 3#3)) (linkR 3#3))).map
        (fun t => (t.rcv.phase, t.rcv.expectedSeq, t.rcvSide.log, t.sndSide.inbox)) =
      some (.done, 3#3, [.eotRx 3#3], [wire 2#8 3#8 0#8 []]) := by decide
theorem test_rcv_ignore_V67 :
    next? (exec (.rcvIgnoreAck (ctl 0#3)) (linkR 0#3)) = some (linkR 0#3) ∧
    next? (exec (.rcvIgnoreEotAck (ctl 0#3)) (linkR 0#3)) = some (linkR 0#3) := by decide
theorem test_rcv_timeout_V69 : next? (exec .rcvTimeout (linkR 2#3)) = some (linkR 2#3) := by decide
theorem test_reset_V74 :
    (next? (exec (.reset .sender) (linkS { win .fault 0#3 7#3 7#3 fl7 7#32 0#32 with cause := 6#4 }))).map (fun t => t.snd) =
      some senderReset := by decide

/-! ### Witnesses: states and operands that meet the hypotheses of the statements, at the boundaries of their clauses -/

/-- The invariants of a window, from checks on its entries below its length. -/
theorem windowInv_of {sn : Sender} (h1 : sn.outstanding.toNat = sn.inFlight.length)
    (h2 : sn.nextSeq = sn.base + sn.outstanding)
    (h3 : (List.range sn.inFlight.length).all
      (fun i => decide ((sn.inFlight[i]?).map (fun e => e.seq) = some (sn.base + BitVec.ofNat 3 i))) = true) :
    WindowInv sn where
  count := h1
  next := h2
  seqs i e he := by
    have hi : i < sn.inFlight.length := (List.getElem?_eq_some_iff.1 he).1
    have := List.all_eq_true.1 h3 i (List.mem_range.2 hi)
    rw [he] at this
    simpa using this

theorem counterInv_of {sn : Sender} (h1 : sn.sentCount.toNat = sn.ackedCount.toNat + sn.outstanding.toNat)
    (h3 : (List.range sn.inFlight.length).all
      (fun i => decide ((sn.inFlight[i]?).map (fun e => e.off.toNat) = some (sn.ackedCount.toNat + i))) = true) :
    CounterInv sn where
  diff := h1
  offs i e he := by
    have hi : i < sn.inFlight.length := (List.getElem?_eq_some_iff.1 he).1
    have := List.all_eq_true.1 h3 i (List.mem_range.2 hi)
    rw [he] at this
    simpa using this

theorem linkInv_of {s : State} (w : WindowInv s.snd) (c : CounterInv s.snd) (k : CauseInv s) (m : MemInv s) : LinkInv s :=
  { window := w, counters := c, causes := k, memories := m }

/-- A running transfer in CYCLE: V22 after its first acknowledgement, with the retransmission requested. -/
def sRun : State :=
  { linkS { win .cycle 1#3 3#3 2#3 [en 1#3 1#32, en 2#3 2#32] 3#32 1#32 with srcDone := true, resend := true } with
    src := { srcOf 3 true with cursor := 3 } }

theorem sRun_link : LinkInv sRun :=
  linkInv_of (windowInv_of (by decide) (by decide) (by decide)) (counterInv_of (by decide) (by decide))
    (by unfold CauseInv; decide) (by unfold MemInv; decide)

theorem sRun_flags : FlagInv sRun.snd := by constructor <;> decide

theorem sRun_protocol : ProtocolInv sRun :=
  { link := sRun_link, cursor := by unfold CursorInv; decide, flags := sRun_flags }

/-- A fresh transfer in CYCLE over a Source of three chunks. -/
def sNew : State := { linkS (at_ .cycle) with src := srcOf 3 true }

theorem sNew_protocol : ProtocolInv sNew :=
  { link := linkInv_of (windowInv_of (by decide) (by decide) (by decide)) (counterInv_of (by decide) (by decide))
      (by unfold CauseInv; decide) (by unfold MemInv; decide)
    cursor := by unfold CursorInv; decide
    flags := by constructor <;> decide }

theorem witness_CodecRoundTripIsLossless :
    (∃ f, frameWf f = true ∧ f.len = 30#5) ∧
    (∃ (b : Datagram) (f : Frame), b.length = 33 ∧ decodeFrame b = .ok f) ∧
    (∃ (b : Datagram) (f : Frame), 33 < b.length ∧ decodeFrame b = .ok f) :=
  ⟨⟨frameData 7#3 30#5 chunk0, by decide⟩, ⟨wire 3#8 7#8 30#8 chunk0, _, by decide, rfl⟩,
    ⟨wire 2#8 3#8 0#8 [] ++ [0xAA#8], _, by decide, rfl⟩⟩

theorem witness_DecodeReadsBackEveryInstruction :
    (instrWf (.txOld 6#3) = true ∧ readBy (.txOld 6#3) .codec = true) ∧
    (instrWf (.rcvOoo .eot (ctl 7#3)) = true ∧ readBy (.rcvOoo .eot (ctl 7#3)) (.rcvWait 0#3) = true) ∧
    (instrWf (.rcvData (ctl 7#3)) = true ∧ readBy (.rcvData (ctl 7#3)) (.rcvWait 7#3) = true) ∧
    (instrWf (.ackLate (ctl 0#3)) = true ∧ readBy (.ackLate (ctl 0#3)) (.sndAck .late) = true) ∧
    (instrWf (.sndIgnoreEot (ctl 0#3)) = true ∧ readBy (.sndIgnoreEot (ctl 0#3)) .sndWait = true) ∧
    (instrWf (.eotAcked (ctl 0#3)) = true ∧ readBy (.eotAcked (ctl 0#3)) .sndEotWait = true) := by decide

theorem witness_DecodedInstructionsAreWellFormed :
    decodeIn .codec [0x25#8, 0x06#8] = .ok (.txOld 6#3) ∧
    decodeIn (.rcvWait 4#3) (wire 1#8 4#8 30#8 chunk0) = .ok (.rcvData { seq := 4#3, len := 30#5, payload := chunk0 }) := by
  decide

theorem witness_DecodeTestsTheBufferInOrder :
    receiving .sender (linkS (at_ .wait)) = true ∧ receiving .sender (linkS (at_ .eotWait)) = true ∧
    receiving .receiver (linkR 0#3) = true ∧ (zeros 32).length < 33 ∧ 33 ≤ (wire 4#8 0#8 0#8 []).length ∧
    3 < ((wire 4#8 0#8 0#8 []).getD 0 0#8).toNat ∧ 7 < ((wire 0#8 8#8 0#8 []).getD 1 0#8).toNat ∧
    30 < ((wire 0#8 0#8 31#8 []).getD 2 0#8).toNat ∧
    (((wire 3#8 7#8 30#8 []).getD 0 0#8).toNat ≤ 3 ∧ ((wire 3#8 7#8 30#8 []).getD 1 0#8).toNat ≤ 7 ∧
      ((wire 3#8 7#8 30#8 []).getD 2 0#8).toNat ≤ 30) := by decide

theorem witness_EncodeFillsTheFrameBuffer :
    frameWf (frameData 7#3 30#5 chunk0) = true ∧ frameWf (frameAck 0#3) = true ∧
    frameWf { frameAck 0#3 with len := 31#5 } = false ∧ frameWf { frameAck 0#3 with payload := zeros 29 } = false := by decide

theorem witness_ConstructorsFillTheFrameBuffer :
    ((30#5 : Len).toNat ≤ 30 ∧ chunk0.length = (30#5 : Len).toNat) ∧
    ((0#5 : Len).toNat ≤ 30 ∧ ([] : List Byte).length = (0#5 : Len).toNat) ∧
    30 < (31#5 : Len).toNat ∧ chunk0.length ≠ (29#5 : Len).toNat := by decide

theorem witness_FrameBufferReadsWhatWasWritten :
    33 < 33 + [1#8].length ∧ 33 < 32 + 2 ∧ 32 + [1#8].length ≤ 33 ∧ 33 + ([] : List Byte).length ≤ 33 ∧
    Memory.wf [(32, 1#8)] = true := by decide

theorem witness_StepPerformsTheDecodedOperation :
    ∃ (s : State) (rest : List Move), s.script = .op .sndWait (wire 0#8 7#8 0#8 []) :: rest ∧
      decodeIn .sndWait (wire 0#8 7#8 0#8 []) = .ok (.ackRx (ctl 7#3)) :=
  ⟨{ s34 with script := [.op .sndWait (wire 0#8 7#8 0#8 [])] }, [], rfl, by decide⟩

/-- A link in these phases with an acknowledgement under way, and this move next. -/
def moved (m : Move) (p : SndPhase) : State :=
  { linkR 0#3 with
    snd := at_ p
    sndSide := { sideReset with inbox := [wire 0#8 0#8 0#8 []] }
    script := [m] }

theorem witness_AnswerStartsTheEventOfThePhase :
    ((moved (.answer .sender (.deliver 0)) .wait).script = [.answer .sender (.deliver 0)] ∧
      noRst .sender (moved (.answer .sender (.deliver 0)) .wait) ∧
      ((moved (.answer .sender (.deliver 0)) .wait).side .sender).inbox[0]? = some (wire 0#8 0#8 0#8 []) ∧
      (moved (.answer .sender (.deliver 0)) .wait).snd.phase = .wait) ∧
    (moved (.answer .sender .timeout) .eotWait).snd.phase = .eotWait ∧
    ((moved (.answer .receiver .error) .done).rcv.phase = .wait ∧ noRst .receiver (moved (.answer .receiver .error) .done)) ∧
    ((moved (.answer .sender .timeout) .cycle).snd.phase ≠ .wait ∧
      (moved (.answer .sender .timeout) .cycle).snd.phase ≠ .eotWait) ∧
    ({ State.reset with script := [.answer .receiver .timeout] } : State).rcv.phase ≠ .wait := by
  unfold noRst; decide

theorem witness_HostInputsReachTheEngines :
    (moved (.host .sender true true) .wait).script = [.host .sender true true] ∧
    (moved (.host .sender false true) .idle).script = [.host .sender false true] ∧
    (moved (.host .receiver false true) .idle).script = [.host .receiver false true] ∧
    (moved (.host .receiver false false) .idle).script = [.host .receiver false false] ∧
    ((moved .run .cycle).script = [.run] ∧ (moved .run .cycle).snd.phase = .cycle) ∧ (moved .run .wait).snd.phase ≠ .cycle := by
  decide

theorem witness_EnvironmentMovesTouchOnlyTheirPart :
    (moved (.drop .sender 0) .wait).script = [.drop .sender 0] ∧
    ((moved (.dup .sender 0) .wait).script = [.dup .sender 0] ∧
      ((moved (.dup .sender 0) .wait).side .sender).inbox[0]? = some (wire 0#8 0#8 0#8 [])) ∧
    ((moved (.dup .sender 1) .wait).script = [.dup .sender 1] ∧ ((moved (.dup .sender 1) .wait).side .sender).inbox[1]? = none) ∧
    (moved (.plan .receiver [.lost]) .wait).script = [.plan .receiver [.lost]] ∧
    (moved (.armRst .sender 0) .wait).script = [.armRst .sender 0] ∧
    ((moved (.load [[1#8]] true) .done).script = [.load [[1#8]] true] ∧ running (moved (.load [[1#8]] true) .done).snd = false) ∧
    running (moved (.load [[1#8]] true) .eotWait).snd = true ∧
    ((moved .newSink .idle).script = [.newSink] ∧ (moved .newSink .idle).rcv.phase ≠ .idle) ∧
    ({ State.reset with script := [.newSink] } : State).rcv.phase = .idle ∧ State.reset.script = [] := by decide

theorem witness_OwnStepsNeverStop :
    (portQuiet (moved (.load [] false) .wait) ∧ step (moved (.load [] false) .wait) = .refused .sourceChanged) ∧
    (portQuiet { moved (.host .sender false true) .idle with src := { srcOf 1 true with cursor := 1 } } ∧
      step { moved (.host .sender false true) .idle with src := { srcOf 1 true with cursor := 1 } } = .refused .sourceCursor) ∧
    (portQuiet (moved .newSink .idle) ∧ step (moved .newSink .idle) = .refused .sinkChanged) :=
  ⟨⟨by simp [portQuiet, moved], rfl⟩, ⟨by simp [portQuiet, moved], rfl⟩, by simp [portQuiet, moved], rfl⟩

/-- Both sides of the iff: TXNEW with a full window and with a window of 6, TXOLD past the window's end and at it. -/
theorem witness_RowsOutsideTheirContextAreRefused :
    ¬ inContext .txNew (linkS (win .cycle 0#3 7#3 7#3 fl7 7#32 0#32)) ∧
    inContext .txNew (linkS (win .cycle 0#3 6#3 6#3 (fl7.take 6) 6#32 0#32)) ∧
    ¬ inContext (.txOld 2#3) sRun ∧ inContext (.txOld 1#3) sRun := by
  simp only [inContext]; decide

theorem witness_EventsPerformTheRowOfTheMap :
    (decodeFrame (wire 0#8 3#8 0#8 []) = .ok (frameAck 3#3) ∧ s34.snd.phase = .wait ∧
      decodeIn .sndWait (wire 0#8 3#8 0#8 []) = .ok (.ackRx (ctl 3#3)) ∧
      ∃ t, exec (.ackRx (ctl 3#3)) (s34.setSide .sender { s34.sndSide with decoded := frameAck 3#3 }) = .next t) ∧
    (s54.snd.phase = .eotWait ∧ decodeIn .sndEotWait (wire 0#8 3#8 0#8 []) = .ok (.eotOtherAck (ctl 3#3))) ∧
    ((linkR 3#3).rcv.phase = .wait ∧ decodeIn (.rcvWait 3#3) (wire 0#8 3#8 0#8 []) = .ok (.rcvIgnoreAck (ctl 3#3))) :=
  ⟨⟨by decide, rfl, by decide, _, rfl⟩, by decide, by decide⟩

theorem witness_BadAnswersAreFaults :
    (zeros 32).length < 33 ∧ 33 ≤ (wire 4#8 0#8 0#8 []).length ∧ 3 < ((wire 4#8 0#8 0#8 []).getD 0 0#8).toNat ∧
    (linkS (at_ .wait)).snd.phase = .wait ∧ (linkS (at_ .eotWait)).snd.phase = .eotWait ∧ (linkR 0#3).rcv.phase = .wait := by decide

/-- The Channel answers the next send of both instances so. -/
def planned (a : SendAnswer) (s : State) : State :=
  { s with sndSide := { s.sndSide with answers := [a] }, rcvSide := { s.rcvSide with answers := [a] } }

/-- The host asserts rst in both instances after so many more external calls. -/
def armed (k : Nat) (s : State) : State := counted .sender (some k) (counted .receiver (some k) s)

/-- RCV's rows: the first call and the last, a pending `ChRecv` with a datagram in the bag, and a row that makes its three calls
before the rst. SND's rows: below, beside the states they need. -/
theorem witness_RstAbandonsAnOperation :
    ((armed 2 (linkR 7#3)).rcv.phase = .wait ∧ (ctl 7#3).seq = (armed 2 (linkR 7#3)).rcv.expectedSeq ∧
      rstDue .receiver 0 (armed 0 (linkR 7#3)) ∧ rstDue .receiver 1 (armed 1 (linkR 7#3)) ∧ rstDue .receiver 2 (armed 2 (linkR 7#3)) ∧
      (ctl 6#3).seq ≠ (armed 0 (linkR 7#3)).rcv.expectedSeq) ∧
    ((armed 0 (moved (.answer .sender (.deliver 0)) .wait)).script = [.answer .sender (.deliver 0)] ∧
      rstDue .sender 0 (armed 0 (moved (.answer .sender (.deliver 0)) .wait)) ∧
      ((armed 0 (moved (.answer .sender (.deliver 0)) .wait)).side .sender).inbox[0]? = some (wire 0#8 0#8 0#8 []) ∧
      (armed 0 (moved (.answer .sender (.deliver 0)) .wait)).snd.phase = .wait) ∧
    engineOf (.rcvData (ctl 7#3)) = .receiver ∧ ∃ t, exec (.rcvData (ctl 7#3)) (armed 3 (linkR 7#3)) = .next t ∧
      rstDue .receiver 0 t :=
  ⟨by unfold rstDue; decide, by unfold rstDue; decide, rfl, _, rfl, rfl⟩

/-- A move of each of the peer, the Channel and the platform. -/
theorem witness_StoppedEnginesStayStopped :
    (∃ t, step (moved .run .done) = .next t) ∧ stopped .sender (moved .run .done) = true ∧
    (∃ t, step (moved (.drop .sender 0) .fault) = .next t) ∧ stopped .sender (moved (.drop .sender 0) .fault) = true ∧
    (∃ t, step (moved (.answer .sender (.deliver 0)) .done) = .next t) ∧
    (∃ t, step { State.reset with rcv := { receiverReset with phase := .fault } } = .next t) ∧
    stopped .receiver { State.reset with rcv := { receiverReset with phase := .fault } } = true :=
  ⟨⟨_, rfl⟩, rfl, ⟨_, rfl⟩, rfl, ⟨_, rfl⟩, ⟨_, rfl⟩, rfl⟩

theorem witness_SndStartOnlyInIdle :
    (State.reset.snd.phase = .idle ∧ State.reset.src.cursor = 0) ∧ (linkS (at_ .done)).snd.phase ≠ .idle ∧
    ({ State.reset with src := { srcOf 1 true with cursor := 1 } } : State).src.cursor ≠ 0 := by decide

/-- The window at 6, a chunk of 30 bytes. -/
def s6 : State :=
  { linkS (win .cycle 0#3 6#3 6#3 (fl7.take 6) 6#32 0#32) with
    src := { chunks := List.replicate 6 [0x41#8] ++ [chunk0, zeros 31, []], cursor := 6, flagsLast := true } }

theorem witness_TxNewTakesOneChunk :
    (s6.snd.phase = .cycle ∧ s6.snd.sendEot = false ∧ s6.snd.doNothing = false ∧ s6.snd.outstanding.toNat < 7 ∧
      s6.snd.srcDone = false ∧ noRst .sender s6) ∧
    ({ s6 with src := { s6.src with cursor := 9 } } : State).src.chunks[9]? = none ∧
    (s6.src.chunks[7]? = some (zeros 31) ∧ 30 < (zeros 31).length) ∧
    (s6.src.chunks[8]? = some [] ∧ ([] : List Byte).length = 0) ∧
    ({ s6 with snd := { s6.snd with sentCount := 4294967295#32 } } : State).snd.sentCount = Config.maxCount ∧
    (s6.src.chunks[s6.src.cursor]? = some chunk0 ∧ 1 ≤ chunk0.length ∧ chunk0.length ≤ 30 ∧
      s6.snd.sentCount ≠ Config.maxCount) ∧
    sendOk .sender s6 ∧ sendOk .sender (planned .lost s6) ∧ noRst .sender (planned (.error false) s6) ∧
    (planned (.error false) s6).sndSide.answers = [.error false] ∧ (planned (.error true) s6).sndSide.answers = [.error true] := by
  unfold noRst sendOk; decide

theorem witness_FillKeepsTheWindowFull :
    sNew.snd.phase = .cycle ∧ sNew.snd.sendEot = false ∧ sNew.snd.doNothing = false ∧ sNew.snd.srcDone = false ∧
    undisturbed .sender sNew ∧ SourceOk sNew ∧ sNew.snd.outstanding.toNat = sNew.snd.inFlight.length ∧
    sNew.snd.sentCount.toNat + 7 < 4294967296 := by
  unfold undisturbed noRst sendsOk SourceOk; decide

theorem witness_TxOldSendsTheEntryAgain :
    sRun.snd.phase = .cycle ∧ sRun.snd.sendEot = false ∧ sRun.snd.resend = true ∧
    (window sRun.snd)[(1#3 : BitVec 3).toNat]? = some (en 2#3 2#32) ∧ noRst .sender sRun ∧ sendOk .sender sRun ∧
    (planned (.error false) sRun).sndSide.answers = [.error false] ∧ sendOk .sender (planned .taken sRun) ∧
    sRun.src.chunks[(en 2#3 2#32).off.toNat]? = some [0x41#8] ∧
    ({ sRun with src := { srcOf 2 true with chunks := [[], [], zeros 31] } } : State).src.chunks[(en 2#3 2#32).off.toNat]? =
      some (zeros 31) ∧
    ({ sRun with src := srcOf 2 true } : State).src.chunks[(en 2#3 2#32).off.toNat]? = none := by
  unfold noRst sendOk; decide

/-- The second part of `witness_RstAbandonsAnOperation`: TXNEW at its second call, TXOLD at each, EOT.SEND, RESEND, ACK, EOT.ACKED
and RESYNC at their first. -/
theorem witness_RstAbandonsAnOperation_sender :
    (inContext .txNew (armed 1 s6) ∧ rstDue .sender 1 (armed 1 s6) ∧
      (armed 1 s6).src.chunks[(armed 1 s6).src.cursor]? = some chunk0 ∧ chunk0.length ≤ 30 ∧
      (armed 1 s6).snd.sentCount ≠ Config.maxCount) ∧
    (inContext (.txOld 1#3) (armed 2 sRun) ∧ (window (armed 2 sRun).snd)[(1#3 : BitVec 3).toNat]? = some (en 2#3 2#32) ∧
      rstDue .sender 2 (armed 2 sRun) ∧ (armed 2 sRun).src.chunks[(en 2#3 2#32).off.toNat]? = some [0x41#8]) ∧
    (inContext .resend (armed 0 sRun) ∧ rstDue .sender 0 (armed 0 sRun)) ∧
    inContext .eotSend (armed 0 (linkS { at_ .cycle with sendEot := true })) ∧
    (inContext (.resync 2#3) (armed 0 s36) ∧ (armed 0 s36).snd.phase = .wait ∧ (armed 0 s36).snd.doNothing = false ∧
      ∃ a, resyncAdj (armed 0 s36).adj (armed 0 s36).snd.ackedCount = some a) ∧
    (armed 0 s54).snd.phase = .eotWait := by
  simp only [inContext, rstDue]; refine ⟨by decide, by decide, by decide, by decide, ⟨by decide, by decide, by decide, 2#32, by decide⟩, by decide⟩

theorem witness_ResendSendsTheWindowInOrder :
    sRun.snd.phase = .cycle ∧ sRun.snd.sendEot = false ∧ sRun.snd.resend = true ∧ undisturbed .sender sRun ∧ SourceOk sRun ∧
    ∀ e ∈ window sRun.snd, e.off.toNat < sRun.src.chunks.length := by
  unfold undisturbed noRst sendsOk SourceOk; decide

theorem witness_SndCycleRunsItsPhasesInOrder :
    ((linkS { at_ .cycle with sendEot := true }).snd.phase = .cycle ∧ (linkS { at_ .cycle with sendEot := true }).snd.sendEot = true) ∧
    (sRun.snd.phase = .cycle ∧ sRun.snd.sendEot = false ∧ ∃ u,
      (if sRun.snd.doNothing = false ∧ sRun.snd.srcDone = false ∧ sRun.snd.outstanding ≠ 7#3 then exec .fill sRun
        else .next sRun) = .next sRun ∧
      (if sRun.snd.resend = true then exec .resend sRun else .next sRun) = .next u ∧ u.snd.phase = .cycle) ∧
    (∃ t, exec .fill { sNew with src := { srcOf 1 true with chunks := [[]] } } = .next t ∧ t.snd.phase ≠ .cycle) :=
  ⟨by decide, ⟨rfl, rfl, _, rfl, rfl, by decide⟩, ⟨_, rfl, by decide⟩⟩

theorem witness_SndCycleEndsInTheWait :
    (ProtocolInv sRun ∧ sRun.snd.phase = .cycle ∧ sRun.snd.sendEot = false ∧ undisturbed .sender sRun ∧ SourceOk sRun ∧
      (∀ e ∈ sRun.snd.inFlight, e.off.toNat < sRun.src.chunks.length) ∧ sRun.snd.sentCount.toNat + 7 < 4294967296) ∧
    (ProtocolInv sNew ∧ sNew.snd.phase = .cycle ∧ sNew.snd.sendEot = false ∧ undisturbed .sender sNew ∧ SourceOk sNew) := by
  refine ⟨⟨sRun_protocol, ?_⟩, sNew_protocol, ?_⟩ <;> (unfold undisturbed noRst sendsOk SourceOk; decide)

/-- The handshake requested after three chunks, V50. -/
def s50 : State :=
  { linkS { win .cycle 3#3 3#3 0#3 [] 3#32 3#32 with srcDone := true, sendEot := true } with
    src := { srcOf 3 true with cursor := 3 } }

theorem s50_protocol : ProtocolInv s50 :=
  { link := linkInv_of (windowInv_of (by decide) (by decide) (by decide)) (counterInv_of (by decide) (by decide))
      (by unfold CauseInv; decide) (by unfold MemInv; decide)
    cursor := by unfold CursorInv; decide
    flags := by constructor <;> decide }

theorem witness_EotSendSendsEotOfBase :
    (s50.snd.phase = .cycle ∧ s50.snd.sendEot = true ∧ noRst .sender s50 ∧ sendOk .sender s50) ∧
    (planned (.error false) s50).sndSide.answers = [.error false] ∧ ProtocolInv s50 :=
  ⟨⟨rfl, rfl, rfl, by unfold sendOk; decide⟩, rfl, s50_protocol⟩

theorem witness_TimeoutRequestsWhatIsDue :
    (s32.snd.phase = .wait ∧ s32.snd.outstanding ≠ 0#3 ∧ s32.snd.doNothing = false) ∧
    (∃ s : State, s.snd.phase = .wait ∧ s.snd.outstanding ≠ 0#3 ∧ s.snd.doNothing = true) ∧
    (∃ s : State, s.snd.phase = .wait ∧ s.snd.outstanding = 0#3 ∧ s.snd.srcDone = true) ∧
    (∃ s : State, s.snd.phase = .wait ∧ s.snd.outstanding = 0#3 ∧ s.snd.srcDone = false) :=
  ⟨by decide, ⟨linkS { s32.snd with doNothing := true }, by decide⟩, ⟨linkS { at_ .wait with srcDone := true }, by decide⟩,
    ⟨linkS (at_ .wait), by decide⟩⟩

/-- In the window: its first and its last number; late at the `outstanding` of 5 and not at 6. -/
theorem witness_AckPerformsTheSelectedRow :
    (s32.snd.phase = .wait ∧ s32.snd.doNothing = false ∧ noRst .sender s32 ∧
      (∃ e ∈ window s32.snd, e.seq = (ctl 6#3).seq) ∧ (∃ e ∈ window s32.snd, e.seq = (ctl 1#3).seq)) ∧
    (s34.snd.phase = .wait ∧ noRst .sender s34 ∧ (¬ ∃ e ∈ window s34.snd, e.seq = (ctl 3#3).seq) ∧
      (s34.snd.srcDone = true ∧ s34.snd.outstanding.toNat < 6 ∧ (ctl 3#3).seq.toNat = s34.snd.sentCount.toNat % 8)) ∧
    (s36.snd.phase = .wait ∧ noRst .sender s36 ∧ (¬ ∃ e ∈ window s36.snd, e.seq = (ctl 2#3).seq) ∧
      ¬ (s36.snd.srcDone = true ∧ s36.snd.outstanding.toNat < 6 ∧ (ctl 2#3).seq.toNat = s36.snd.sentCount.toNat % 8)) ∧
    ({ s32 with snd := { s32.snd with doNothing := true } } : State).snd.doNothing = true := by
  unfold noRst; decide

theorem s32_window : WindowInv s32.snd := windowInv_of (by decide) (by decide) (by decide)

/-- The last number of the window, where the difference is `outstanding - 1`. -/
theorem witness_AckInWindowCompletes :
    s32.snd.phase = .wait ∧ s32.snd.doNothing = false ∧ noRst .sender s32 ∧ WindowInv s32.snd ∧
    ((ctl 1#3).seq - s32.snd.base).toNat < s32.snd.outstanding.toNat :=
  ⟨rfl, rfl, rfl, s32_window, by decide⟩

theorem witness_ScanIsTheModularTest : WindowInv s32.snd := s32_window

theorem witness_AckCumPopsUpToTheNumber :
    s32.snd.phase = .wait ∧ s32.snd.doNothing = false ∧ WindowInv s32.snd ∧
    ((ctl 6#3).seq - s32.snd.base).toNat < s32.snd.outstanding.toNat :=
  ⟨rfl, rfl, s32_window, by decide⟩

/-- A window of 5, the most for which the late-frame test can hold. -/
def s5 : State := linkS { win .wait 0#3 5#3 5#3 (fl7.take 5) 5#32 0#32 with srcDone := true }

theorem witness_AckLateEmptiesTheWindow :
    (s5.snd.phase = .wait ∧ s5.snd.doNothing = false ∧ WindowInv s5.snd ∧
      (¬ ((ctl 5#3).seq - s5.snd.base).toNat < s5.snd.outstanding.toNat) ∧ s5.snd.srcDone = true ∧
      s5.snd.outstanding.toNat < 6 ∧ (ctl 5#3).seq = sentMod8 s5.snd) ∧
    ({ s54 with snd := { s54.snd with phase := .wait } } : State).snd.outstanding = 0#3 ∧ 6 ≤ s36.snd.outstanding.toNat :=
  ⟨⟨rfl, rfl, windowInv_of (by decide) (by decide) (by decide), by decide, rfl, by decide, by decide⟩, rfl, by decide⟩

theorem witness_IgnoredFramesChangeNothing :
    s32.snd.phase = .wait ∧
    (∃ s : State, s.snd.phase = .wait ∧ s.snd.doNothing = true) :=
  ⟨rfl, linkS { at_ .wait with doNothing := true }, rfl, rfl⟩

theorem witness_ResyncResetsTheWindow :
    (s36.snd.phase = .wait ∧ noRst .sender s36 ∧ s36.adj = [] ∧ s36.snd.ackedCount ≠ 0#32 ∧
      resyncAdj s36.adj s36.snd.ackedCount = some 2#32) ∧
    (s54.snd.phase = .eotWait ∧ noRst .sender s54 ∧ s54.snd.ackedCount ≠ 0#32) ∧
    ((linkS (at_ .wait)).snd.phase = .wait ∧ (linkS (at_ .wait)).adj = [] ∧ (linkS (at_ .wait)).snd.ackedCount = 0#32) ∧
    (resyncAdj sAdj.adj sAdj.snd.ackedCount = some 3#32 ∧ resyncAdj sAdj.adj 9#32 = none ∧ resyncAdj sAdj.adj 0#32 = some 0#32) := by
  unfold noRst; decide

/-- An instance whose table is the correction of no step at 3, in the RESYNC of V36 (R10). -/
theorem witness_ResyncUnderAnyCorrection :
    sAdj.adj = [(3#32, some 3#32), (0#32, some 0#32), (9#32, none)] ∧ sAdj.snd.phase = .wait ∧ noRst .sender sAdj ∧
    (∀ f : Count → Option Count, f = (fun a => some a) → f sAdj.snd.ackedCount = some 3#32) ∧
    ∃ t, step { sAdj with script := [.run] } = .next t :=
  ⟨rfl, rfl, rfl, by rintro f rfl; rfl, _, rfl⟩

theorem witness_AckResyncIsResync :
    s36.snd.phase = .wait ∧ ackBranch (ctl 2#3).seq s36.snd = .resync ∧ noRst .sender s36 ∧
    resyncAdj s36.adj s36.snd.ackedCount = some 2#32 ∧ s36.adj = [] ∧ s36.snd.ackedCount ≠ 0#32 := by
  unfold noRst; decide

theorem witness_ReplayedAckIsOutOfWindow : WindowInv s32.snd ∧ ∃ t, exec (.ackCum (ctl 0#3)) s32 = .next t :=
  ⟨s32_window, _, rfl⟩

theorem witness_EotAckedEndsTheTransfer : s54.snd.phase = .eotWait ∧ noRst .sender s54 := by
  unfold noRst; decide

theorem witness_EotOtherResynchronizes :
    s54.snd.phase = .eotWait ∧ noRst .sender s54 ∧ resyncAdj s54.adj s54.snd.ackedCount = some 1#32 ∧ s54.adj = [] ∧
    ((linkS (at_ .eotWait)).snd.phase = .eotWait ∧
      resyncAdj (linkS (at_ .eotWait)).adj (linkS (at_ .eotWait)).snd.ackedCount = none) := by
  unfold noRst; decide

/-- The state after V50's EOT.SEND. -/
theorem witness_EotTimeoutReturnsToTheCycle :
    ({ s50 with snd := { s50.snd with phase := .eotWait } } : State).snd.phase = .eotWait ∧
    ProtocolInv { s50 with snd := { s50.snd with phase := .eotWait } } :=
  ⟨rfl,
    { link := linkInv_of (windowInv_of (by decide) (by decide) (by decide)) (counterInv_of (by decide) (by decide))
        (by unfold CauseInv; decide) (by unfold MemInv; decide)
      cursor := by unfold CursorInv; decide
      flags := by constructor <;> decide }⟩

theorem witness_RcvStartOnlyInIdle : State.reset.rcv.phase = .idle ∧ (linkR 0#3).rcv.phase ≠ .idle := by decide

theorem witness_RcvDataAcceptsTheFrame :
    (linkR 7#3).rcv.phase = .wait ∧ (ctl 7#3).seq = (linkR 7#3).rcv.expectedSeq ∧ noRst .receiver (linkR 7#3) ∧
    sendOk .receiver (linkR 7#3) ∧ sendOk .receiver (planned .lost (linkR 7#3)) ∧ noRst .receiver (planned (.error false) (linkR 7#3)) ∧
    (planned (.error false) (linkR 7#3)).rcvSide.answers = [.error false] := by
  unfold noRst sendOk; decide

theorem witness_RcvEotEndsTheTransfer :
    (linkR 0#3).rcv.phase = .wait ∧ (ctl 0#3).seq = (linkR 0#3).rcv.expectedSeq ∧ noRst .receiver (linkR 0#3) ∧
    sendOk .receiver (linkR 0#3) ∧ sendOk .receiver (planned .lost (linkR 0#3)) ∧ noRst .receiver (planned (.error false) (linkR 0#3)) ∧
    (planned (.error false) (linkR 0#3)).rcvSide.answers = [.error false] := by
  unfold noRst sendOk; decide

theorem witness_RcvOooRepliesTheNumberItWaitsFor :
    (linkR 0#3).rcv.phase = .wait ∧ (ctl 7#3).seq ≠ (linkR 0#3).rcv.expectedSeq ∧ noRst .receiver (linkR 0#3) ∧
    sendOk .receiver (linkR 0#3) ∧ sendOk .receiver (planned .lost (linkR 0#3)) ∧ noRst .receiver (planned (.error false) (linkR 0#3)) ∧
    (planned (.error false) (linkR 0#3)).rcvSide.answers = [.error false] := by
  unfold noRst sendOk; decide

theorem witness_RcvIgnoresRepliesAndTimeouts :
    (linkR 7#3).rcv.phase = .wait ∧ (ctl 7#3).seq = (linkR 7#3).rcv.expectedSeq := by decide

/-- A link whose RCV gets the Data frame it waits for. -/
def sAccept : State :=
  { linkR 7#3 with
    rcvSide := { sideReset with inbox := [wire 1#8 7#8 2#8 [0x41#8, 0x42#8]] }
    script := [.answer .receiver (.deliver 0)] }

theorem sAccept_takes : takesData sAccept { seq := 7#3, len := 2#5, payload := 0x41#8 :: 0x42#8 :: zeros 28 } :=
  .inl ⟨0, _, _, rfl, rfl, rfl, rfl, rfl⟩

theorem witness_ExpectedSeqAdvancesOnlyOnAcceptance :
    (∃ t, step sAccept = .next t ∧ t.rcv.expectedSeq ≠ sAccept.rcv.expectedSeq ∧ t.sink ≠ sAccept.sink) ∧
    ∃ t, step { State.reset with sink := [0x41#8], script := [.newSink] } = .next t ∧ t.sink ≠ [0x41#8] :=
  ⟨⟨_, rfl, by decide, by decide⟩, _, rfl, by decide⟩

theorem witness_EnginesShareNoState :
    (∃ t, exec .eotSend (linkS { at_ .cycle with sendEot := true }) = .next t) ∧ engineOf .eotSend = .sender ∧
    (∃ t, exec (.rcvOoo .ack (ctl 1#3)) (linkR 0#3) = .next t) ∧ engineOf (.rcvOoo .ack (ctl 1#3)) = .receiver :=
  ⟨⟨_, rfl⟩, rfl, ⟨_, rfl⟩, rfl⟩

/-- Two links that differ in everything the SENDER cannot see, and two in what the RECEIVER cannot. -/
theorem witness_EnginesLearnOnlyFromFrames :
    ((∃ t, exec .eotSend (linkS { at_ .cycle with sendEot := true }) = .next t) ∧
      sameForSender (linkS { at_ .cycle with sendEot := true })
        { linkR 5#3 with snd := { at_ .cycle with sendEot := true }, sink := [1#8] }) ∧
    ((∃ t, exec (.rcvOoo .ack (ctl 1#3)) (linkR 0#3) = .next t) ∧
      sameForReceiver (linkR 0#3) { linkR 0#3 with snd := at_ .done, src := srcOf 3 true }) :=
  ⟨⟨⟨_, rfl⟩, rfl, rfl, rfl, rfl⟩, ⟨_, rfl⟩, rfl, rfl, rfl⟩

theorem witness_BagsHoldOnlyWholeFrames : ∃ t, step sAccept = .next t ∧ t.sndSide.inbox = [wire 0#8 7#8 0#8 []] :=
  ⟨_, rfl, by decide⟩

/-- The second disjunct happens: V36 resynchronizes. -/
theorem witness_NumberingSurvivesAllButResync :
    NumberingInv sRun.snd ∧ (∃ t, step { sRun with script := [.run] } = .next t) ∧
    NumberingInv s36.snd ∧ ∃ t, step { s36 with script := [.op .sndWait (wire 0#8 2#8 0#8 [])] } = .next t :=
  ⟨by unfold NumberingInv; decide, ⟨_, rfl⟩, by unfold NumberingInv; decide, _, rfl⟩

/-- The same link with its next move in the script. -/
def withRun (s : State) : State := { s with script := [.run] }

theorem link_withRun {s : State} (h : LinkInv s) : LinkInv (withRun s) :=
  { window := h.window, counters := h.counters, causes := h.causes, memories := h.memories }

theorem witness_EveryStepKeepsTheLinkInvariant : LinkInv (withRun sRun) ∧ ∃ t, step (withRun sRun) = .next t :=
  ⟨link_withRun sRun_link, _, rfl⟩

theorem witness_EveryOwnStepKeepsTheProtocolInvariant :
    ProtocolInv (withRun sNew) ∧ portQuiet (withRun sNew) ∧ ∃ t, step (withRun sNew) = .next t :=
  ⟨{ link := link_withRun sNew_protocol.link, cursor := sNew_protocol.cursor, flags := sNew_protocol.flags },
    by simp [portQuiet, withRun], _, rfl⟩

theorem witness_DerivedOutputsFollowTheRegisters : LinkInv sRun := sRun_link

theorem witness_PhasesMoveAsTheTablesSay :
    ∃ t, step (withRun sRun) = .next t ∧ t.snd.phase = .wait :=
  ⟨_, rfl, by decide⟩

/-- V51 and V65, each as a step of the link. -/
theorem witness_TransferEndsOnlyByTheHandshake :
    (∃ t, step { s54 with script := [.answer .sender (.deliver 0)], sndSide := { sideReset with inbox := [wire 2#8 3#8 0#8 []] } } = .next t ∧
      t.snd.phase = .done) ∧ s54.snd.phase ≠ .done ∧
    (∃ t, step { linkR 3#3 with script := [.answer .receiver (.deliver 0)], rcvSide := { sideReset with inbox := [wire 3#8 3#8 0#8 []] } } = .next t ∧
      t.rcv.phase = .done) ∧ (linkR 3#3).rcv.phase ≠ .done :=
  ⟨⟨_, rfl, by decide⟩, by decide, ⟨_, rfl, by decide⟩, by decide⟩

end Sys2Proof.Tests
end

/-! PROOFS of the scope family (00_scope.md): what one step performs (R13), and RESYNC_ADJ as a parameter of the instance
(R10). The frame lemma they turn on is said once here: no operation of the block writes the parameter or the script. -/

namespace Sys2Proof.Machine

/-! ### What the head of the script comes to -/

/-- The head of the script is taken, and the rest stays to come (log 7). -/
theorem fetch_of_script {s : State} {m : Move} {rest : List Move} (h : s.script = m :: rest) :
    fetch s = fetchMove m (s.setScript rest) := by
  simp [fetch, h]

theorem fetchMove_op_ok {r : Reader} {bytes : List Byte} {i : Instr} (s : State) (h : decodeIn r bytes = .ok i) :
    fetchMove (.op r bytes) s = .perform i s := by
  simp [fetchMove, h]

theorem fetchMove_op_error {r : Reader} {bytes : List Byte} {err : DecodeError} (s : State)
    (h : decodeIn r bytes = .error err) : fetchMove (.op r bytes) s = .reject (.undecodable err) := by
  simp [fetchMove, h]

theorem step_of_perform {s t : State} {i : Instr} (h : fetch s = .perform i t) : step s = exec i t := by
  simp [step, h]

theorem step_of_still {s t : State} (h : fetch s = .still t) : step s = .next t := by
  simp [step, h]

theorem step_of_reject {s : State} {r : Refusal} (h : fetch s = .reject r) : step s = .refused r := by
  simp [step, h]

/-- Settles O9: the port's bytes are decoded, and the row they decode to is performed (R13, R98; log 12). -/
theorem stepPerformsTheDecodedOperation : Obligations.StepPerformsTheDecodedOperation := by
  intro s r bytes rest i hs hd
  have hf : fetch s = .perform i (s.setScript rest) := by rw [fetch_of_script hs, fetchMove_op_ok _ hd]
  exact step_of_perform hf

/-! ### What no operation writes -/

/-- What the block does not own: the parameter RESYNC_ADJ of the instance (R10; log 9) and the moves still to come (log 7). -/
structure SameSetting (s t : State) : Prop where
  adj : t.adj = s.adj
  script : t.script = s.script

@[simp] theorem sameSetting_iff (s t : State) : SameSetting s t ↔ t.adj = s.adj ∧ t.script = s.script :=
  ⟨fun h => ⟨h.adj, h.script⟩, fun ⟨ha, hs⟩ => ⟨ha, hs⟩⟩

theorem SameSetting.trans {s t u : State} (h : SameSetting s t) (h' : SameSetting t u) : SameSetting s u :=
  ⟨h'.adj.trans h.adj, h'.script.trans h.script⟩

/-- However the operation comes out, it has written neither; and it does not stop the model. -/
def Res.KeepsSetting {α : Type} (s : State) (r : Res α) : Prop :=
  r.Spec (fun _ t => SameSetting s t) (SameSetting s)

section Keeping
variable {α β : Type} {s : State}

theorem keeps_ok {t : State} (a : α) (h : SameSetting s t) : (Res.ok a t).KeepsSetting s := h

theorem keeps_raise (e : Role) (c : FaultCode) (s : State) : (raise e c s : Res α).KeepsSetting s :=
  (spec_raise e c s).2 (by simp)

theorem keeps_mono {t : State} {r : Res α} (hst : SameSetting s t) (h : r.KeepsSetting t) : r.KeepsSetting s :=
  spec_mono h (fun _ _ hu => hst.trans hu) (fun _ hu => hst.trans hu)

theorem keeps_bind {r : Res α} {k : α → State → Res β} (h : r.KeepsSetting s) (hk : ∀ a t, (k a t).KeepsSetting t) :
    (r.bind k).KeepsSetting s :=
  spec_bind h fun a t hst => keeps_mono hst (hk a t)

/-- A row that answers a next state has kept what its operation keeps. -/
theorem row_keeps {r : Res α} (hr : r.KeepsSetting s) {c : Bool} {m : String} {t : State}
    (h : onlyWhen c m r.outcome = .next t) : SameSetting s t :=
  spec_next hr (onlyWhen_eq_next h).2
end Keeping

/-! ### The external calls and the CODEC -/

section Calls
variable (e : Role) (s : State)

@[simp] theorem deposit_adj (b : Datagram) : (deposit e b s).adj = s.adj := by simp [deposit]
@[simp] theorem deposit_script (b : Datagram) : (deposit e b s).script = s.script := by simp [deposit]
@[simp] theorem decided_adj (r : Option Nat) (as : List SendAnswer) : (decided e r as s).adj = s.adj := by simp [decided]
@[simp] theorem decided_script (r : Option Nat) (as : List SendAnswer) : (decided e r as s).script = s.script := by
  simp [decided]

theorem record_keeps (ev : Event) : (record e ev s).KeepsSetting s := by
  refine spec_mono (record_spec e ev s) ?_ ?_
  · rintro _ _ ⟨r, rfl⟩; simp
  · rintro _ rfl; simp

theorem srcNext_keeps : (srcNext s).KeepsSetting s := by
  refine spec_mono (srcNext_spec s) ?_ ?_
  · rintro _ _ ⟨r, ⟨d, _, _, rfl⟩ | ⟨_, _, rfl⟩⟩ <;> simp
  · rintro _ rfl; simp

theorem srcSeek_keeps (i : Nat) : (srcSeek i s).KeepsSetting s := by
  refine spec_mono (srcSeek_spec i s) ?_ ?_
  · rintro _ _ ⟨r, rfl⟩; simp
  · rintro _ rfl; simp

theorem sinkAppend_keeps (d : List Byte) : (sinkAppend d s).KeepsSetting s := by
  refine spec_mono (sinkAppend_spec d s) ?_ ?_
  · rintro _ _ ⟨r, rfl⟩; simp
  · rintro _ rfl; simp

theorem encodeOp_keeps {f : Frame} (hp : f.payload.length = 30) : (encodeOp e f s).KeepsSetting s := by
  rw [encodeOp_eq e f s hp]
  exact keeps_ok _ (by simp)

theorem sendFrame_keeps {f : Frame} (hp : f.payload.length = 30) : (sendFrame e f s).KeepsSetting s := by
  refine spec_mono (sendFrame_spec e f s hp) ?_ ?_
  · rintro _ _ ⟨r, as, rfl | rfl⟩ <;> simp
  · rintro _ (rfl | ⟨r, as, rfl | rfl⟩) <;> simp

theorem decodeOp_keeps (b : Datagram) : (decodeOp e b s).KeepsSetting s := by
  refine spec_mono (decodeOp_spec e b s) ?_ ?_
  · rintro f _ ⟨_, rfl⟩; simp
  · rintro _ ⟨err, _, rfl⟩; simp
end Calls

/-! ### The operations of RCV -/

section Receiving
variable (s : State)

theorem rcvDataBody_keeps (f : Body) : (rcvDataBody f s).KeepsSetting s :=
  keeps_bind (sinkAppend_keeps s _) fun _ t =>
    keeps_bind (record_keeps .receiver t _) fun _ u =>
      keeps_bind (sendFrame_keeps .receiver u (frameAck_payload_length _)) fun _ _ => keeps_ok _ (by simp)

theorem rcvEotBody_keeps (f : Body) : (rcvEotBody f s).KeepsSetting s :=
  keeps_bind (record_keeps .receiver s _) fun _ t =>
    keeps_bind (sendFrame_keeps .receiver t (frameEotAck_payload_length _)) fun _ _ => keeps_ok _ (by simp)

theorem rcvOooBody_keeps : (rcvOooBody s).KeepsSetting s :=
  sendFrame_keeps .receiver s (frameAck_payload_length _)

theorem rcvIgnoreBody_keeps : (rcvIgnoreBody s).KeepsSetting s := keeps_ok _ (by simp)

theorem rcvTimeoutBody_keeps : (rcvTimeoutBody s).KeepsSetting s := keeps_ok _ (by simp)

theorem rcvFrameBody_keeps (f : Frame) : (rcvFrameBody f s).KeepsSetting s := by
  unfold rcvFrameBody
  split
  · cases f.kind with
    | data => exact rcvDataBody_keeps s _
    | eot => exact rcvEotBody_keeps s _
    | ack => exact rcvIgnoreBody_keeps s
    | eotAck => exact rcvIgnoreBody_keeps s
  · exact rcvOooBody_keeps s

theorem rcvEventBody_keeps (a : Answer) : (rcvEventBody a s).KeepsSetting s := by
  cases a with
  | error => exact keeps_raise _ _ s
  | timeout => exact rcvTimeoutBody_keeps s
  | buffer b => exact keeps_bind (decodeOp_keeps .receiver s b) fun f t => rcvFrameBody_keeps t f
end Receiving

/-! ### The operations of SND -/

section Sending
variable (s : State)

theorem txNewBody_keeps : (txNewBody s).KeepsSetting s := by
  refine keeps_bind (srcNext_keeps s) fun a t => ?_
  cases a with
  | exhausted => exact keeps_ok _ (by simp)
  | chunk d isLast =>
    dsimp only
    split
    · exact keeps_raise _ _ t
    split
    · exact keeps_raise _ _ t
    next hlen =>
      split
      · exact keeps_raise _ _ t
      · exact keeps_bind (sendFrame_keeps .sender t (chunk_payload_length _ d hlen)) fun _ _ => keeps_ok _ (by simp)

theorem fillLoop_keeps (n : Nat) : (fillLoop n s).KeepsSetting s := by
  induction n generalizing s with
  | zero => exact keeps_ok _ (by simp)
  | succ n ih =>
    unfold fillLoop
    split
    · exact keeps_bind (txNewBody_keeps s) fun _ t => ih t
    · exact keeps_ok _ (by simp)

theorem fillBody_keeps : (fillBody s).KeepsSetting s := fillLoop_keeps s _

theorem txOldBody_keeps (en : Entry) : (txOldBody en s).KeepsSetting s := by
  refine keeps_bind (srcSeek_keeps s _) fun _ t => keeps_bind (srcNext_keeps t) fun a u => ?_
  cases a with
  | exhausted => exact keeps_raise _ _ u
  | chunk d isLast =>
    dsimp only
    split
    · exact keeps_raise _ _ u
    split
    · exact keeps_raise _ _ u
    next hlen => exact sendFrame_keeps .sender u (chunk_payload_length _ d hlen)

theorem txOldAll_keeps (l : List Entry) : (txOldAll l s).KeepsSetting s := by
  induction l generalizing s with
  | nil => exact keeps_ok _ (by simp)
  | cons en rest ih => exact keeps_bind (txOldBody_keeps s en) fun _ t => ih t

theorem resendBody_keeps : (resendBody s).KeepsSetting s :=
  keeps_bind (txOldAll_keeps s _) fun _ t => keeps_bind (srcSeek_keeps t _) fun _ _ => keeps_ok _ (by simp)

theorem eotSendBody_keeps : (eotSendBody s).KeepsSetting s :=
  keeps_bind (sendFrame_keeps .sender s (frameEot_payload_length _)) fun _ _ => keeps_ok _ (by simp)

theorem cycleFill_keeps : (cycleFill s).KeepsSetting s := by
  unfold cycleFill
  split
  · exact fillBody_keeps s
  · exact keeps_ok _ (by simp)

theorem cycleResend_keeps : (cycleResend s).KeepsSetting s := by
  unfold cycleResend
  split
  · exact resendBody_keeps s
  · exact keeps_ok _ (by simp)

theorem sndCycleBody_keeps : (sndCycleBody s).KeepsSetting s := by
  unfold sndCycleBody
  split
  · exact eotSendBody_keeps s
  · exact keeps_bind (cycleFill_keeps s) fun _ t => keeps_bind (cycleResend_keeps t) fun _ _ => keeps_ok _ (by simp)

theorem timeoutBody_keeps : (timeoutBody s).KeepsSetting s := keeps_ok _ (by simp)

theorem ackCumBody_keeps (count : Nat) : (ackCumBody count s).KeepsSetting s := keeps_ok _ (by simp)

theorem ackLateBody_keeps : (ackLateBody s).KeepsSetting s := ackCumBody_keeps s _

theorem ackDiscardBody_keeps : (ackDiscardBody s).KeepsSetting s := keeps_ok _ (by simp)

theorem sndIgnoreBody_keeps : (sndIgnoreBody s).KeepsSetting s := keeps_ok _ (by simp)

theorem resyncBody_keeps (n : Seq) : (resyncBody n s).KeepsSetting s := by
  refine spec_mono (resyncBody_spec n s) ?_ ?_
  · rintro _ _ ⟨a, r, _, rfl⟩; simp
  · rintro _ (⟨_, rfl⟩ | rfl) <;> simp

theorem ackResyncBody_keeps (n : Seq) : (ackResyncBody n s).KeepsSetting s := resyncBody_keeps s n

theorem ackBody_keeps (n : Seq) : (ackBody n s).KeepsSetting s := by
  unfold ackBody
  split
  · exact ackDiscardBody_keeps s
  · refine keeps_bind (record_keeps .sender s _) fun _ t => ?_
    split
    · exact ackCumBody_keeps t _
    split
    · exact ackLateBody_keeps t
    · exact ackResyncBody_keeps t n

theorem sndFrameBody_keeps (f : Frame) : (sndFrameBody f s).KeepsSetting s := by
  unfold sndFrameBody
  cases f.kind with
  | ack => exact ackBody_keeps s _
  | data => exact sndIgnoreBody_keeps s
  | eotAck => exact sndIgnoreBody_keeps s
  | eot => exact sndIgnoreBody_keeps s

theorem sndAnswerBody_keeps (a : Answer) : (sndAnswerBody a s).KeepsSetting s := by
  cases a with
  | error => exact keeps_raise _ _ s
  | timeout => exact timeoutBody_keeps s
  | buffer b => exact keeps_bind (decodeOp_keeps .sender s b) fun f t => sndFrameBody_keeps t f

theorem sndEventBody_keeps (a : Answer) : (sndEventBody a s).KeepsSetting s :=
  keeps_bind (sndAnswerBody_keeps s a) fun _ _ => keeps_ok _ (by simp)

theorem eotAckedBody_keeps (n : Seq) : (eotAckedBody n s).KeepsSetting s :=
  keeps_bind (record_keeps .sender s _) fun _ _ => keeps_ok _ (by simp)

theorem eotOtherBody_keeps (n : Seq) : (eotOtherBody n s).KeepsSetting s :=
  keeps_bind (resyncBody_keeps s n) fun _ _ => keeps_ok _ (by simp)

theorem eotTimeoutBody_keeps : (eotTimeoutBody s).KeepsSetting s := keeps_ok _ (by simp)

theorem eotFrameBody_keeps (f : Frame) : (eotFrameBody f s).KeepsSetting s := by
  unfold eotFrameBody
  cases f.kind with
  | eotAck => exact eotAckedBody_keeps s _
  | ack => exact eotOtherBody_keeps s _
  | data => exact eotOtherBody_keeps s _
  | eot => exact eotOtherBody_keeps s _

theorem eotEventBody_keeps (a : Answer) : (eotEventBody a s).KeepsSetting s := by
  cases a with
  | error => exact keeps_raise _ _ s
  | timeout => exact eotTimeoutBody_keeps s
  | buffer b => exact keeps_bind (decodeOp_keeps .sender s b) fun f t => eotFrameBody_keeps t f
end Sending

/-! ### The rows and the step -/

section Rows
variable {s t : State}

theorem execData_keeps {n : Seq} {len : Len} {d : List Byte} (h : execData n len d s = .next t) : SameSetting s t := by
  unfold execData at h
  split at h
  next hr =>
    obtain ⟨hlen, hd⟩ := hr
    exact spec_next (encodeOp_keeps .sender s (frameData_payload_length n len d (hd.trans_le hlen))) h
  next => cases h

theorem execEncode_keeps {e : Role} {f : Frame} (h : execEncode e f s = .next t) : SameSetting s t := by
  unfold execEncode at h
  split at h
  next hf => exact spec_next (encodeOp_keeps e s ((frameWf_iff f).1 hf).2) h
  next => cases h

theorem execTxOld_keeps {j : BitVec 3} (h : execTxOld j s = .next t) : SameSetting s t := by
  unfold execTxOld at h
  split at h
  next en _ => exact row_keeps (txOldBody_keeps s en) h
  next => cases h

theorem execSndStart_keeps (h : execSndStart s = .next t) : SameSetting s t := by
  unfold execSndStart at h
  split at h
  · split at h <;> cases h
    simp
  · cases h; simp

theorem execRcvStart_keeps (h : execRcvStart s = .next t) : SameSetting s t := by
  unfold execRcvStart at h
  split at h <;> cases h <;> simp

theorem execReset_keeps {e : Role} (h : execReset e s = .next t) : SameSetting s t := by
  cases h; simp

/-- No row of the table writes the parameter or the script. -/
theorem exec_keeps {i : Instr} (h : exec i s = .next t) : SameSetting s t := by
  cases i with
  | ack n => exact spec_next (encodeOp_keeps .receiver s (frameAck_payload_length n)) h
  | data n len d => exact execData_keeps h
  | eotAck n => exact spec_next (encodeOp_keeps .receiver s (frameEotAck_payload_length n)) h
  | eot n => exact spec_next (encodeOp_keeps .sender s (frameEot_payload_length n)) h
  | ackRx f => exact row_keeps (ackBody_keeps s f.seq) h
  | ackDiscard f => exact row_keeps (ackDiscardBody_keeps s) h
  | ackCum f => exact row_keeps (ackCumBody_keeps s _) h
  | ackLate f => exact row_keeps (ackLateBody_keeps s) h
  | ackResync f => exact row_keeps (ackResyncBody_keeps s f.seq) h
  | sndIgnoreData f => exact row_keeps (sndIgnoreBody_keeps s) h
  | sndIgnoreEotAck f => exact row_keeps (sndIgnoreBody_keeps s) h
  | sndIgnoreEot f => exact row_keeps (sndIgnoreBody_keeps s) h
  | eotAcked f => exact row_keeps (eotAckedBody_keeps s f.seq) h
  | eotOtherAck f => exact row_keeps (eotOtherBody_keeps s f.seq) h
  | eotOtherData f => exact row_keeps (eotOtherBody_keeps s f.seq) h
  | eotOtherEot f => exact row_keeps (eotOtherBody_keeps s f.seq) h
  | rcvData f => exact row_keeps (rcvDataBody_keeps s f) h
  | rcvEot f => exact row_keeps (rcvEotBody_keeps s f) h
  | rcvOoo k f => exact row_keeps (rcvOooBody_keeps s) h
  | rcvIgnoreAck f => exact row_keeps (rcvIgnoreBody_keeps s) h
  | rcvIgnoreEotAck f => exact row_keeps (rcvIgnoreBody_keeps s) h
  | encode e f => exact execEncode_keeps h
  | decode e b => exact row_keeps (decodeOp_keeps e s b) h
  | sndStart => exact execSndStart_keeps h
  | sndCycle => exact row_keeps (sndCycleBody_keeps s) h
  | fill => exact row_keeps (fillBody_keeps s) h
  | txNew => exact row_keeps (txNewBody_keeps s) h
  | resend => exact row_keeps (resendBody_keeps s) h
  | txOld j => exact execTxOld_keeps h
  | sndEvent a => exact row_keeps (sndEventBody_keeps s a) h
  | timeout => exact row_keeps (timeoutBody_keeps s) h
  | resync n => exact row_keeps (resyncBody_keeps s n) h
  | eotSend => exact row_keeps (eotSendBody_keeps s) h
  | eotEvent a => exact row_keeps (eotEventBody_keeps s a) h
  | eotTimeout => exact row_keeps (eotTimeoutBody_keeps s) h
  | rcvStart => exact execRcvStart_keeps h
  | rcvEvent a => exact row_keeps (rcvEventBody_keeps s a) h
  | rcvTimeout => exact row_keeps (rcvTimeoutBody_keeps s) h
  | reset e => exact execReset_keeps h
end Rows

/-- The state that a fetched move hands on has the parameter and the script of `s`. -/
def Fetched.KeepsSetting (s : State) : Fetched → Prop
  | .perform _ t => SameSetting s t
  | .still t => SameSetting s t
  | .reject _ => True

section Moves
variable (s : State)

@[simp] theorem perform_keepsSetting_iff (i : Instr) (t : State) :
    (Fetched.perform i t).KeepsSetting s ↔ SameSetting s t := Iff.rfl
@[simp] theorem still_keepsSetting_iff (t : State) : (Fetched.still t).KeepsSetting s ↔ SameSetting s t := Iff.rfl
@[simp] theorem reject_keepsSetting (r : Refusal) : (Fetched.reject r).KeepsSetting s := trivial

theorem channelAnswer_keeps {s t : State} {e : Role} {c : RecvChoice} {a : Answer}
    (h : channelAnswer e c s = some (a, t)) : SameSetting s t := by
  cases c with
  | timeout => cases h; simp
  | error => cases h; simp
  | deliver i =>
    unfold channelAnswer at h
    dsimp only at h
    split at h <;> cases h
    simp

theorem fetchAnswer_keeps (e : Role) (c : RecvChoice) : (fetchAnswer e c s).KeepsSetting s := by
  unfold fetchAnswer
  split
  · simp
  next a t hc =>
    have hst : SameSetting s t := channelAnswer_keeps hc
    split
    · simp
    · split
      · simp
      · simpa using hst
      · exact hst

theorem fetchHost_keeps (e : Role) (rst start : Bool) : (fetchHost e rst start s).KeepsSetting s := by
  unfold fetchHost
  split
  · simp
  split
  · cases e <;> simp
  · simp

theorem fetchRun_keeps : (fetchRun s).KeepsSetting s := by
  unfold fetchRun
  split <;> simp

/-- A move, once it is taken from the script, writes neither the parameter nor what is left of the script. -/
theorem fetchMove_keeps (m : Move) : (fetchMove m s).KeepsSetting s := by
  cases m with
  | op r bytes =>
    cases h : decodeIn r bytes with
    | ok i => simp [fetchMove_op_ok s h]
    | error err => simp [fetchMove_op_error s h]
  | host e rst start => exact fetchHost_keeps s e rst start
  | run => exact fetchRun_keeps s
  | answer e c => exact fetchAnswer_keeps s e c
  | drop e i => simp [fetchMove]
  | dup e i => simp [fetchMove]
  | plan e as => simp [fetchMove]
  | armRst e n => simp [fetchMove]
  | load chunks flagsLast =>
    simp only [fetchMove]
    split <;> simp
  | newSink =>
    simp only [fetchMove]
    split <;> simp

/-- Fetching takes the head of the script and keeps the rest and the parameter. -/
theorem fetch_keeps : (fetch s).KeepsSetting (s.setScript s.script.tail) := by
  cases h : s.script with
  | nil => simp [fetch, h]
  | cons m rest =>
    rw [fetch_of_script h]
    exact fetchMove_keeps _ m
end Moves

/-- A step takes one move from the script and leaves the parameter as it is (R10; log 7, log 9). -/
theorem step_keeps {s t : State} (h : step s = .next t) : SameSetting (s.setScript s.script.tail) t := by
  have hk := fetch_keeps s
  cases hf : fetch s with
  | perform i u =>
    rw [hf] at hk
    rw [step_of_perform hf] at h
    exact hk.trans (exec_keeps h)
  | still u =>
    rw [hf] at hk
    rw [step_of_still hf] at h
    cases h
    exact hk
  | reject r =>
    rw [step_of_reject hf] at h
    cases h

theorem step_adj {s t : State} (h : step s = .next t) : t.adj = s.adj := (step_keeps h).adj

/-! ### RESYNC under the instance's RESYNC_ADJ -/

section Resync
variable {s : State} (n : Seq)

/-- RESYNC is performed in WAIT and in EOTWAIT (R176, R203). -/
theorem exec_resync (h : s.snd.phase = .wait ∨ s.snd.phase = .eotWait) :
    exec (.resync n) s = (resyncBody n s).outcome := by
  have hc : (inWait s || decide (s.snd.phase = .eotWait)) = true := by simpa [inWait] using h
  change execResync n s = _
  rw [execResync, hc, onlyWhen_true]

theorem srcSeek_noRst {s : State} (i : Nat) (hr : noRst .sender s) :
    srcSeek i s = .ok () (s.setSrc { s.src with cursor := i }) :=
  external_none _ hr

/-- RESYNC where the correction is defined: both counters and the cursor get the corrected count, the window is empty and
sending is suppressed (R177). -/
theorem resyncBody_defined {a : Count} (hr : noRst .sender s) (ha : resyncAdj s.adj s.snd.ackedCount = some a) :
    resyncBody n s = .ok () { s with
      src := { s.src with cursor := a.toNat }
      snd := { s.snd with
        inFlight := [], outstanding := 0#3, base := n, nextSeq := n, ackedCount := a, sentCount := a
        srcDone := false, doNothing := true } } := by
  have hr' : noRst .sender (s.setSnd (resyncRegs n a s.snd)) := hr
  simp only [resyncBody, resyncWith, ha, srcSeek_noRst _ hr', bind_ok]
  rfl

/-- RESYNC where the correction is not defined is RESYNC_UNDERFLOW, before any register changes (R246). -/
theorem resyncBody_undefined (ha : resyncAdj s.adj s.snd.ackedCount = none) :
    resyncBody n s = raise .sender .resyncUnderflow s := by
  simp only [resyncBody, resyncWith, ha]
end Resync

/-- There are finitely many counts, so a table can list a function at all of them (R8, R10; log 9). -/
theorem exists_correction (f : Count → Option Count) : ∃ c : Correction, ∀ a, resyncAdj c a = f a := by
  have : Finite Count := Finite.of_injective BitVec.toFin fun _ _ => BitVec.eq_of_toFin_eq
  obtain ⟨counts, -, hall⟩ := Finite.exists_univ_list Count
  exact ⟨counts.map fun k => (k, f k), fun a => resyncAdj_table f counts (hall a)⟩

/-- Settles O42: the default is the empty table's, a step keeps the table, and `exists_correction` gives any other function
its table, under which RESYNC is `resyncBody_defined` or `resyncBody_undefined`. -/
theorem resyncUnderAnyCorrection : Obligations.ResyncUnderAnyCorrection := by
  refine ⟨resyncAdj_nil, fun _ _ => step_adj, fun f => ?_⟩
  obtain ⟨c, hc⟩ := exists_correction f
  refine ⟨c, fun s n hs hp hr => ?_⟩
  have hadj : resyncAdj s.adj s.snd.ackedCount = f s.snd.ackedCount := by rw [hs, hc]
  constructor
  · intro a ha
    rw [exec_resync n hp, resyncBody_defined n hr (hadj.trans ha), outcome_ok]
  · intro hnone
    rw [exec_resync n hp, resyncBody_undefined n (hadj.trans hnone), raise_outcome]
    rfl

end Sys2Proof.Machine

/-! PROOFS of the state family (10_state.md): the invariants R27, R28, R31 and R35 along every step, the phase tables R34 and
R37, and what a stopped engine keeps. They turn on one inversion, `exec_ran`: what a row that answers a next state has done. -/

namespace Sys2Proof.Machine

/-! ### The reset state -/

/-- Settles O18: RESET of either role is `resetEngine`, which is written with the values of R40 (R280, R281). -/
theorem resetPutsTheRegistersAtZero : Obligations.ResetPutsTheRegistersAtZero :=
  fun _ => ⟨rfl, rfl⟩

/-- Settles O19: each component of State.reset is the value of R40, R66 and R77. -/
theorem resetStateIsTheSpecs : Obligations.ResetStateIsTheSpecs :=
  ⟨rfl, rfl, rfl, rfl⟩

/-! ### The link invariant, engine by engine -/

/-- SND's part of the link invariant: its window, its counters and its cause (R27, R28, R35). -/
structure SndInv (sn : Sender) : Prop where
  window : WindowInv sn
  counters : CounterInv sn
  cause : sn.cause ≠ 0#4 ↔ sn.phase = .fault
  code : sn.cause.toNat ≤ 8

/-- RCV's part of the link invariant: its cause (R35, R37). -/
structure RcvInv (rc : Receiver) : Prop where
  cause : rc.cause ≠ 0#4 ↔ rc.phase = .fault
  code : rc.cause.toNat ≤ 8

/-- The part of the link invariant that speaks of one engine's registers. -/
def engineInv (e : Role) (s : State) : Prop :=
  match e with
  | .sender => SndInv s.snd
  | .receiver => RcvInv s.rcv

@[simp] theorem engineInv_sender (s : State) : engineInv .sender s ↔ SndInv s.snd := Iff.rfl
@[simp] theorem engineInv_receiver (s : State) : engineInv .receiver s ↔ RcvInv s.rcv := Iff.rfl

/-- The link invariant is each engine's part and a canonical frame buffer in each instance. -/
theorem linkInv_iff (s : State) :
    LinkInv s ↔ ∀ e, engineInv e s ∧ Memory.wf (s.side e).fb = true := by
  constructor
  · rintro ⟨hw, hc, ⟨hsc, hs8, hrc, hr8⟩, hms, hmr⟩ e
    cases e with
    | sender => exact ⟨⟨hw, hc, hsc, hs8⟩, hms⟩
    | receiver => exact ⟨⟨hrc, hr8⟩, hmr⟩
  · intro h
    obtain ⟨hs, hms⟩ := h .sender
    obtain ⟨hr, hmr⟩ := h .receiver
    rw [engineInv_sender] at hs
    exact ⟨hs.window, hs.counters, ⟨hs.cause, hs.code, hr.cause, hr.code⟩, hms, hmr⟩

theorem windowInv_empty {sn : Sender} (ho : sn.outstanding = 0#3) (hf : sn.inFlight = []) (hn : sn.nextSeq = sn.base) :
    WindowInv sn where
  count := by simp [ho, hf]
  next := by simp [ho, hn]
  seqs := by simp [hf]

theorem counterInv_empty {sn : Sender} (ho : sn.outstanding = 0#3) (hf : sn.inFlight = [])
    (hc : sn.sentCount = sn.ackedCount) : CounterInv sn where
  diff := by simp [ho, hc]
  offs := by simp [hf]

theorem sndInv_reset : SndInv senderReset where
  window := windowInv_empty rfl rfl rfl
  counters := counterInv_empty rfl rfl rfl
  cause := by decide
  code := by decide

theorem rcvInv_reset : RcvInv receiverReset where
  cause := by decide
  code := by decide

theorem faultCode_ne_zero (c : FaultCode) : faultCode c ≠ 0#4 := by cases c <;> decide

theorem faultCode_le (c : FaultCode) : (faultCode c).toNat ≤ 8 := by cases c <;> decide

/-- The flags before start are reset's (R40). -/
theorem flagInv_reset : FlagInv senderReset where
  atIdle _ := rfl
  atResend h := by cases h
  atSendEot h := by cases h
  atWait h := by cases h
  atEotWait h := by cases h
  atDoNothing h := by cases h

/-- Settles O59: at reset the window is empty, no cause is set, no transfer runs and the buffers list no byte. -/
theorem invariantsHoldAtReset : Obligations.InvariantsHoldAtReset := by
  have hlink : LinkInv State.reset := by
    rw [linkInv_iff]
    intro e
    cases e with
    | sender => exact ⟨sndInv_reset, rfl⟩
    | receiver => exact ⟨rcvInv_reset, rfl⟩
  exact ⟨hlink, hlink, fun _ => rfl, flagInv_reset⟩

/-! ### The derived outputs -/

/-- With the cause bookkeeping of R35, an engine that is not in FAULT has cause 0. -/
theorem SndInv.cause_eq_zero {sn : Sender} (h : SndInv sn) (hp : sn.phase ≠ .fault) : sn.cause = 0#4 :=
  not_not.1 fun hc => hp (h.cause.1 hc)

theorem RcvInv.cause_eq_zero {rc : Receiver} (h : RcvInv rc) (hp : rc.phase ≠ .fault) : rc.cause = 0#4 :=
  not_not.1 fun hc => hp (h.cause.1 hc)

theorem sndDone_iff (sn : Sender) : sndDone sn = true ↔ sn.phase = .done := decide_eq_true_iff
theorem sndFault_iff (sn : Sender) : sndFault sn = true ↔ sn.phase = .fault := decide_eq_true_iff
theorem rcvDone_iff (rc : Receiver) : rcvDone rc = true ↔ rc.phase = .done := decide_eq_true_iff
theorem rcvFault_iff (rc : Receiver) : rcvFault rc = true ↔ rc.phase = .fault := decide_eq_true_iff
theorem isFull_iff (sn : Sender) : isFull sn = true ↔ sn.outstanding = 7#3 := decide_eq_true_iff
theorem isEmpty_iff (sn : Sender) : isEmpty sn = true ↔ sn.outstanding = 0#3 := decide_eq_true_iff

/-- Settles O22: the outputs are tests of the registers, and the cause bookkeeping ties fault and done to the cause. -/
theorem derivedOutputsFollowTheRegisters : Obligations.DerivedOutputsFollowTheRegisters := by
  refine ⟨fun sn => ⟨isFull_iff sn, isEmpty_iff sn, sndDone_iff sn, sndFault_iff sn⟩,
    fun rc => ⟨rcvDone_iff rc, rcvFault_iff rc⟩, fun s h => ?_⟩
  have hsnd : SndInv s.snd := ((linkInv_iff s).1 h .sender).1
  have hrcv : RcvInv s.rcv := ((linkInv_iff s).1 h .receiver).1
  refine ⟨(sndFault_iff _).trans hsnd.cause.symm, (rcvFault_iff _).trans hrcv.cause.symm, fun hd => ?_, fun hd => ?_⟩
  · exact hsnd.cause_eq_zero (by simp [(sndDone_iff _).1 hd])
  · exact hrcv.cause_eq_zero (by simp [(rcvDone_iff _).1 hd])

/-! ### Register writes that keep SND's part -/

/-- The window lists exactly its valid entries (R26, R27(a)). -/
theorem WindowInv.window_eq {sn : Sender} (h : WindowInv sn) : window sn = sn.inFlight :=
  List.take_of_length_le h.count.ge

theorem length_window_le (sn : Sender) : (window sn).length ≤ sn.outstanding.toNat :=
  List.length_take_le _ _

/-- SND's part of the invariant does not speak of the flags, nor of the phase apart from FAULT. -/
theorem SndInv.congr {x y : Sender} (h : SndInv x) (hb : y.base = x.base) (hn : y.nextSeq = x.nextSeq)
    (ho : y.outstanding = x.outstanding) (hs : y.sentCount = x.sentCount) (ha : y.ackedCount = x.ackedCount)
    (hf : y.inFlight = x.inFlight) (hc : y.cause = x.cause) (hp : y.phase = .fault ↔ x.phase = .fault) : SndInv y where
  window := ⟨by rw [ho, hf, h.window.count], by rw [hn, hb, ho, h.window.next], by rw [hf, hb]; exact h.window.seqs⟩
  counters := ⟨by rw [hs, ha, ho, h.counters.diff], by rw [hf, ha]; exact h.counters.offs⟩
  cause := by rw [hc, hp, h.cause]
  code := hc ▸ h.code

/-- A phase other than FAULT is written from one other than FAULT. -/
theorem SndInv.setPhase {sn : Sender} {p : SndPhase} (h : SndInv sn) (hs : sn.phase ≠ .fault) (hp : p ≠ .fault) :
    SndInv { sn with phase := p } :=
  h.congr rfl rfl rfl rfl rfl rfl rfl (iff_of_false hp hs)

theorem RcvInv.setPhase {rc : Receiver} {p : RcvPhase} (h : RcvInv rc) (hs : rc.phase ≠ .fault) (hp : p ≠ .fault) :
    RcvInv { rc with phase := p } :=
  ⟨by simp [h.cause_eq_zero hs, hp], h.code⟩

/-- Taking a fault sets a cause with the phase and leaves the window alone (R252). -/
theorem SndInv.fault {sn : Sender} (h : SndInv sn) (c : FaultCode) :
    SndInv { sn with cause := faultCode c, phase := .fault } where
  window := ⟨h.window.count, h.window.next, h.window.seqs⟩
  counters := ⟨h.counters.diff, h.counters.offs⟩
  cause := iff_of_true (faultCode_ne_zero c) rfl
  code := faultCode_le c

theorem rcvInv_fault (rc : Receiver) (c : FaultCode) : RcvInv { rc with cause := faultCode c, phase := .fault } where
  cause := iff_of_true (faultCode_ne_zero c) rfl
  code := faultCode_le c

/-- Where an entry of a list with one more at its end stands. -/
theorem getElem?_concat_cases {α : Type} {l : List α} {a x : α} {i : Nat} (h : (l ++ [a])[i]? = some x) :
    l[i]? = some x ∨ i = l.length ∧ x = a := by
  rcases Nat.lt_or_ge i l.length with hi | hi
  · exact .inl (by rwa [List.getElem?_append_left hi] at h)
  · rw [List.getElem?_append_right hi, List.getElem?_singleton] at h
    split at h
    next h0 => exact .inr ⟨by omega, (Option.some.inj h).symm⟩
    next => cases h

theorem outstanding_succ {o : BitVec 3} (h : o.toNat < 7) : (o + 1#3).toNat = o.toNat + 1 := by
  rw [BitVec.toNat_add]; simp; omega

theorem outstanding_pred {o : BitVec 3} (h : 0 < o.toNat) : (o - 1#3).toNat = o.toNat - 1 := by bv_omega

/-- The new entry has the number and the count that come next (R27(c), R28(b), R144). -/
theorem SndInv.pushWindow {sn : Sender} (h : SndInv sn) (ho : sn.outstanding.toNat < 7)
    (hmax : sn.sentCount ≠ Config.maxCount) (isLast : Bool) : SndInv (pushWindow sn isLast) := by
  have hw := h.window.window_eq
  have hlen := h.window.count
  have hsent : (sn.sentCount + 1#32).toNat = sn.sentCount.toNat + 1 := by bv_omega
  refine ⟨⟨?_, ?_, fun i en hi => ?_⟩, ⟨?_, fun i en hi => ?_⟩, h.cause, h.code⟩
  · simp [Machine.pushWindow, hw, outstanding_succ ho, hlen]
  · simp only [Machine.pushWindow, h.window.next, BitVec.add_assoc]
  · simp only [Machine.pushWindow, hw] at hi ⊢
    rcases getElem?_concat_cases hi with hi | ⟨rfl, rfl⟩
    · exact h.window.seqs i en hi
    · simp [h.window.next, ← hlen]
  · simp only [Machine.pushWindow, outstanding_succ ho, hsent, h.counters.diff, Nat.add_assoc]
  · simp only [Machine.pushWindow, hw] at hi ⊢
    rcases getElem?_concat_cases hi with hi | ⟨rfl, rfl⟩
    · exact h.counters.offs i en hi
    · simp only [h.counters.diff, hlen]

/-- One entry popped: the next one is at the front, one number and one count further (R175). -/
theorem SndInv.popOne {sn : Sender} (h : SndInv sn) (ho : 0 < sn.outstanding.toNat) : SndInv (popOne sn) := by
  have hw := h.window.window_eq
  have hlen := h.window.count
  have hdiff := h.counters.diff
  have hacked : (sn.ackedCount + 1#32).toNat = sn.ackedCount.toNat + 1 := by
    have := sn.sentCount.isLt
    rw [BitVec.toNat_add]; simp; omega
  refine ⟨⟨?_, ?_, fun i en hi => ?_⟩, ⟨?_, fun i en hi => ?_⟩, h.cause, h.code⟩
  · simp [Machine.popOne, hw, outstanding_pred ho, hlen]
  · have := h.window.next
    simp only [Machine.popOne]
    bv_omega
  · simp only [Machine.popOne, hw, List.getElem?_drop] at hi ⊢
    rw [h.window.seqs _ en hi, BitVec.ofNat_add, BitVec.add_assoc]
  · simp only [Machine.popOne, hacked, outstanding_pred ho]
    omega
  · simp only [Machine.popOne, hw, List.getElem?_drop] at hi ⊢
    rw [h.counters.offs _ en hi, hacked, Nat.add_assoc]

/-- As many entries popped as the window has, or fewer (R174, R175). -/
theorem SndInv.popMany {sn : Sender} (h : SndInv sn) {n : Nat} (hn : n ≤ sn.outstanding.toNat) :
    SndInv (popMany n sn) := by
  induction n generalizing sn with
  | zero => exact h
  | succ n ih =>
    refine ih (h.popOne (by omega)) ?_
    simp only [Machine.popOne, outstanding_pred (show 0 < sn.outstanding.toNat by omega)]
    omega

/-- A resynchronization empties the window and levels the counters (R177). -/
theorem SndInv.resync {sn : Sender} (h : SndInv sn) (n : Seq) (a : Count) :
    SndInv { resyncRegs n a sn with doNothing := true } where
  window := windowInv_empty rfl rfl rfl
  counters := counterInv_empty rfl rfl rfl
  cause := h.cause
  code := h.code

/-- ACK.CUM leaves the phase, the flags and the count of chunks sent alone (R175). -/
theorem popMany_frame (n : Nat) (sn : Sender) :
    (popMany n sn).phase = sn.phase ∧ (popMany n sn).sentCount = sn.sentCount ∧
      (popMany n sn).doNothing = sn.doNothing ∧ (popMany n sn).resend = sn.resend ∧
      (popMany n sn).sendEot = sn.sendEot := by
  induction n generalizing sn with
  | zero => exact ⟨rfl, rfl, rfl, rfl, rfl⟩
  | succ n ih => exact ih (popOne sn)

/-- ACK's scan counts no more entries than it is given (R173). -/
theorem scanWindow_le {n : Seq} {l : List Entry} {c : Nat} (h : scanWindow n l = some c) : c ≤ l.length := by
  induction l generalizing c with
  | nil => cases h
  | cons en rest ih =>
    unfold scanWindow at h
    split at h
    · cases h; simp
    · split at h <;> cases h
      next k hk => simpa using ih hk

/-! ### What an engine's own work leaves alone -/

/-- What belongs to an engine beside its instance's side is as it was: its registers, and SND's Source or RCV's Sink. -/
def sameEngine (e : Role) (s t : State) : Prop :=
  match e with
  | .sender => t.snd = s.snd ∧ t.src = s.src
  | .receiver => t.rcv = s.rcv ∧ t.sink = s.sink

@[simp] theorem sameEngine_sender (s t : State) : sameEngine .sender s t ↔ t.snd = s.snd ∧ t.src = s.src := Iff.rfl
@[simp] theorem sameEngine_receiver (s t : State) : sameEngine .receiver s t ↔ t.rcv = s.rcv ∧ t.sink = s.sink := Iff.rfl

/-- What work of the engine of `e` leaves alone in every case: the peer's engine, the peer's side but for datagrams sent to it,
the bag towards `e`, and the canonical form of its frame buffer. -/
structure Work (e : Role) (s t : State) : Prop where
  peerEngine : sameEngine (peer e) s t
  peerSide : ∃ more, t.side (peer e) = { s.side (peer e) with inbox := (s.side (peer e)).inbox ++ more }
  inbox : (t.side e).inbox = (s.side e).inbox
  fb : Memory.wf (s.side e).fb = true → Memory.wf (t.side e).fb = true

theorem Work.trans {e : Role} {s t u : State} (h : Work e s t) (h' : Work e t u) : Work e s u where
  peerEngine := by
    have h1 := h.peerEngine
    have h2 := h'.peerEngine
    cases e <;> exact ⟨h2.1.trans h1.1, h2.2.trans h1.2⟩
  peerSide := by
    obtain ⟨m, hm⟩ := h.peerSide
    obtain ⟨m', hm'⟩ := h'.peerSide
    exact ⟨m ++ m', by rw [hm', hm]; simp⟩
  inbox := h'.inbox.trans h.inbox
  fb := h'.fb ∘ h.fb

/-- Work on the engine's own side alone. -/
theorem work_setSide (e : Role) (s : State) {x : Side} (hi : x.inbox = (s.side e).inbox)
    (hf : Memory.wf (s.side e).fb = true → Memory.wf x.fb = true) : Work e s (s.setSide e x) where
  peerEngine := by cases e <;> exact ⟨rfl, rfl⟩
  peerSide := ⟨[], by simp⟩
  inbox := by simpa using hi
  fb := by simpa using hf

theorem Work.refl (e : Role) (s : State) : Work e s s where
  peerEngine := by cases e <;> exact ⟨rfl, rfl⟩
  peerSide := ⟨[], by simp⟩
  inbox := rfl
  fb := id

theorem work_setSnd (s : State) (x : Sender) : Work .sender s (s.setSnd x) where
  peerEngine := ⟨rfl, rfl⟩
  peerSide := ⟨[], by simp⟩
  inbox := rfl
  fb := id

theorem work_setSrc (s : State) (x : Source) : Work .sender s (s.setSrc x) where
  peerEngine := ⟨rfl, rfl⟩
  peerSide := ⟨[], by simp⟩
  inbox := rfl
  fb := id

theorem work_setRcv (s : State) (x : Receiver) : Work .receiver s (s.setRcv x) where
  peerEngine := ⟨rfl, rfl⟩
  peerSide := ⟨[], by simp⟩
  inbox := rfl
  fb := id

theorem work_setSink (s : State) (x : List Byte) : Work .receiver s (s.setSink x) where
  peerEngine := ⟨rfl, rfl⟩
  peerSide := ⟨[], by simp⟩
  inbox := rfl
  fb := id

theorem work_takeFault (e : Role) (c : FaultCode) (s : State) : Work e s (takeFault e c s) := by
  cases e with
  | sender => exact work_setSnd s _
  | receiver => exact work_setRcv s _

theorem work_resetEngine (e : Role) (s : State) : Work e s (resetEngine e s) := by
  cases e with
  | sender => exact (work_setSnd s senderReset).trans (work_setSide .sender _ rfl id)
  | receiver => exact (work_setRcv s receiverReset).trans (work_setSide .receiver _ rfl id)

theorem work_counted (e : Role) (r : Option Nat) (s : State) : Work e s (counted e r s) :=
  work_setSide e s rfl id

theorem work_decided (e : Role) (r : Option Nat) (as : List SendAnswer) (s : State) : Work e s (decided e r as s) :=
  work_setSide e s rfl id

/-- ENCODE writes the 33 bytes of the buffer and no other (R120). -/
theorem work_encoded (e : Role) {f : Frame} (s : State) (hp : f.payload.length = 30) : Work e s (encoded e f s) :=
  work_setSide e s rfl fun h => memSetAll_wf _ _ 0 h (by simp [hp])

theorem work_deposit (e : Role) (b : Datagram) (s : State) : Work e s (deposit e b s) where
  peerEngine := by cases e <;> exact ⟨rfl, rfl⟩
  peerSide := ⟨[b], by simp [deposit]⟩
  inbox := by simp [deposit]
  fb := by simp [deposit]

/-! ### The two ways out of an engine's work -/

/-- The engine's work so far has written no register of either engine. -/
structure Called (e : Role) (s t : State) : Prop where
  work : Work e s t
  snd : t.snd = s.snd
  rcv : t.rcv = s.rcv

theorem Called.trans {e : Role} {s t u : State} (h : Called e s t) (h' : Called e t u) : Called e s u :=
  ⟨h.work.trans h'.work, h'.snd.trans h.snd, h'.rcv.trans h.rcv⟩

theorem Called.refl (e : Role) (s : State) : Called e s s := ⟨Work.refl e s, rfl, rfl⟩

/-- The phase of an engine is as it was. -/
def samePhase (e : Role) (s t : State) : Prop :=
  match e with
  | .sender => t.snd.phase = s.snd.phase
  | .receiver => t.rcv.phase = s.rcv.phase

/-- An engine is in FAULT. -/
def inFault (e : Role) (s : State) : Prop :=
  match e with
  | .sender => s.snd.phase = .fault
  | .receiver => s.rcv.phase = .fault

/-- The engine's work goes on in its phase, with the engine's part of the invariant. -/
structure Goes (e : Role) (s t : State) : Prop where
  work : Work e s t
  phase : samePhase e s t
  inv : engineInv e s → engineInv e t

/-- The engine's work has ended early, in FAULT or by an rst (R252, R280), with the engine's part of the invariant. -/
structure Stops (e : Role) (s t : State) : Prop where
  work : Work e s t
  out : atReset e t ∨ inFault e t
  inv : engineInv e s → engineInv e t

theorem Called.goes {e : Role} {s t : State} (h : Called e s t) : Goes e s t := by
  refine ⟨h.work, ?_, ?_⟩ <;> cases e <;> simp [samePhase, h.snd, h.rcv]

theorem Goes.refl (e : Role) (s : State) : Goes e s s := (Called.refl e s).goes

theorem Goes.trans {e : Role} {s t u : State} (h : Goes e s t) (h' : Goes e t u) : Goes e s u where
  work := h.work.trans h'.work
  phase := by cases e <;> exact Eq.trans h'.phase h.phase
  inv := h'.inv ∘ h.inv

theorem Goes.stops {e : Role} {s t u : State} (h : Goes e s t) (h' : Stops e t u) : Stops e s u :=
  ⟨h.work.trans h'.work, h'.out, h'.inv ∘ h.inv⟩

theorem stops_reset (e : Role) (s : State) : Stops e s (resetEngine e s) where
  work := work_resetEngine e s
  out := .inl (by cases e <;> rfl)
  inv _ := by
    cases e with
    | sender => exact sndInv_reset
    | receiver => exact rcvInv_reset

theorem stops_fault (e : Role) (c : FaultCode) (s : State) : Stops e s (takeFault e c s) where
  work := work_takeFault e c s
  out := .inr (by cases e <;> rfl)
  inv h := by
    cases e with
    | sender => exact SndInv.fault h c
    | receiver => exact rcvInv_fault _ c

/-- An operation followed by the rest of the engine's work. -/
theorem spec_then {α β : Type} {e : Role} {s : State} {P : α → State → Prop} {R : β → State → Prop} {r : Res α}
    {k : α → State → Res β} (h : r.Spec P (Stops e s)) (hg : ∀ a t, P a t → Goes e s t)
    (hk : ∀ a t, P a t → (k a t).Spec R (Stops e t)) : (r.bind k).Spec R (Stops e s) :=
  spec_bind h fun a t ha => spec_mono (hk a t ha) (fun _ _ hu => hu) fun _ hu => (hg a t ha).stops hu

theorem raise_stops {α : Type} {e : Role} {P : α → State → Prop} (c : FaultCode) (s : State) :
    (raise e c s : Res α).Spec P (Stops e s) :=
  stops_fault e c s

/-! ### The external calls and the CODEC -/

/-- A call that touches neither registers nor the Source nor the Sink. -/
structure Quiet (e : Role) (s t : State) : Prop extends Called e s t where
  src : t.src = s.src

theorem record_does (e : Role) (ev : Event) (s : State) :
    (record e ev s).Spec (fun _ t => Quiet e s t) (Stops e s) := by
  refine spec_mono (record_spec e ev s) ?_ ?_
  · rintro _ _ ⟨r, rfl⟩
    exact ⟨⟨(work_counted e r s).trans (work_setSide e _ (by simp) (by simp)), by simp, by simp⟩, by simp⟩
  · rintro _ rfl
    exact stops_reset e s

/-- `SrcNext` answers a chunk, past which the cursor moves as `srcCursorAfter` says, or Exhausted (R67). -/
def SrcAnswered (s : State) (a : SrcAnswer) (t : State) : Prop :=
  (∃ d isLast, a = .chunk d isLast ∧ t.src.cursor = srcCursorAfter s.src.cursor d) ∨
    a = .exhausted ∧ t.src.cursor = s.src.cursor

theorem srcNext_does (s : State) :
    (srcNext s).Spec (fun a t => Called .sender s t ∧ SrcAnswered s a t) (Stops .sender s) := by
  refine spec_mono (srcNext_spec s) ?_ ?_
  · rintro _ _ ⟨r, ⟨d, _, rfl, rfl⟩ | ⟨_, rfl, rfl⟩⟩
    · exact ⟨⟨(work_counted .sender r s).trans (work_setSrc _ _), rfl, rfl⟩, .inl ⟨d, _, rfl, rfl⟩⟩
    · exact ⟨⟨work_counted .sender r s, rfl, rfl⟩, .inr ⟨rfl, rfl⟩⟩
  · rintro _ rfl
    exact stops_reset .sender s

theorem srcSeek_does (i : Nat) (s : State) :
    (srcSeek i s).Spec (fun _ t => Called .sender s t ∧ t.src.cursor = i) (Stops .sender s) := by
  refine spec_mono (srcSeek_spec i s) ?_ ?_
  · rintro _ _ ⟨r, rfl⟩
    exact ⟨⟨(work_counted .sender r s).trans (work_setSrc _ _), rfl, rfl⟩, rfl⟩
  · rintro _ rfl
    exact stops_reset .sender s

theorem sinkAppend_does (d : List Byte) (s : State) :
    (sinkAppend d s).Spec (fun _ t => Called .receiver s t) (Stops .receiver s) := by
  refine spec_mono (sinkAppend_spec d s) ?_ ?_
  · rintro _ _ ⟨r, rfl⟩
    exact ⟨(work_counted .receiver r s).trans (work_setSink _ _), rfl, rfl⟩
  · rintro _ rfl
    exact stops_reset .receiver s

theorem quiet_encoded (e : Role) {f : Frame} (s : State) (hp : f.payload.length = 30) : Quiet e s (encoded e f s) :=
  ⟨⟨work_encoded e s hp, by simp, by simp⟩, by simp⟩

theorem quiet_decided (e : Role) (r : Option Nat) (as : List SendAnswer) (s : State) : Quiet e s (decided e r as s) :=
  ⟨⟨work_decided e r as s, by simp [decided], by simp [decided]⟩, by simp [decided]⟩

theorem quiet_deposit (e : Role) (b : Datagram) (s : State) : Quiet e s (deposit e b s) :=
  ⟨⟨work_deposit e b s, by simp [deposit], by simp [deposit]⟩, by simp [deposit]⟩

theorem Quiet.trans {e : Role} {s t u : State} (h : Quiet e s t) (h' : Quiet e t u) : Quiet e s u :=
  ⟨h.toCalled.trans h'.toCalled, h'.src.trans h.src⟩

theorem sendFrame_does (e : Role) {f : Frame} (s : State) (hp : f.payload.length = 30) :
    (sendFrame e f s).Spec (fun _ t => Quiet e s t) (Stops e s) := by
  have henc := quiet_encoded e s hp
  have hdec : ∀ r as, Quiet e s (decided e r as (encoded e f s)) := fun r as => henc.trans (quiet_decided e r as _)
  have hdep : ∀ r as, Quiet e s (deposit e (encodeFrame f) (decided e r as (encoded e f s))) := fun r as =>
    (hdec r as).trans (quiet_deposit e _ _)
  refine spec_mono (sendFrame_spec e f s hp) ?_ ?_
  · rintro _ _ ⟨r, as, rfl | rfl⟩
    · exact hdep r as
    · exact hdec r as
  · rintro _ (rfl | ⟨r, as, rfl | rfl⟩)
    · exact henc.goes.stops (stops_reset e _)
    · exact (hdep r as).goes.stops (stops_fault e _ _)
    · exact (hdec r as).goes.stops (stops_fault e _ _)

theorem decodeOp_does (e : Role) (b : Datagram) (s : State) :
    (decodeOp e b s).Spec (fun _ t => Quiet e s t) (Stops e s) := by
  refine spec_mono (decodeOp_spec e b s) ?_ ?_
  · rintro f _ ⟨_, rfl⟩
    exact ⟨⟨work_setSide e s rfl id, by simp, by simp⟩, by simp⟩
  · rintro _ ⟨err, _, rfl⟩
    exact stops_fault e _ s

/-! ### One move of an engine -/

/-- An engine is in a phase in which the block performs its rows: CYCLE, WAIT or EOTWAIT of SND, WAIT of RCV (R34, R37). -/
def active (e : Role) (s : State) : Prop :=
  match e with
  | .sender => running s.snd = true
  | .receiver => s.rcv.phase = .wait

/-- An engine's phase moves as its table says. -/
def mayMove (e : Role) (s t : State) : Prop :=
  match e with
  | .sender => sndMayMove s.snd t.snd
  | .receiver => rcvMayMove s.rcv t.rcv

/-- The engine's work has ended: its phase moved as the table says, with the engine's part of the invariant. -/
structure Moves (e : Role) (s t : State) : Prop where
  work : Work e s t
  move : mayMove e s t
  inv : engineInv e s → engineInv e t

theorem Goes.moves {e : Role} {s t : State} (h : Goes e s t) : Moves e s t where
  work := h.work
  move := by cases e <;> exact .inr (.inl h.phase)
  inv := h.inv

/-- In each phase in which a row is performed the table lets the engine go to FAULT. -/
theorem Stops.moves {e : Role} {s t : State} (h : Stops e s t) (ha : active e s) : Moves e s t where
  work := h.work
  move := by
    rcases h.out with hr | hf
    · cases e <;> exact .inl hr
    · cases e with
      | sender =>
        refine .inr (.inr ?_)
        have ht : t.snd.phase = .fault := hf
        rw [ht]
        change running s.snd = true at ha
        cases hp : s.snd.phase <;> simp [running, hp] at ha ⊢
      | receiver =>
        refine .inr (.inr ?_)
        have ht : t.rcv.phase = .fault := hf
        have hs : s.rcv.phase = .wait := ha
        rw [hs]
        exact .inr ht
  inv := h.inv

/-- Only the phase an engine starts from matters for its table. -/
theorem Goes.trans_moves {e : Role} {s t u : State} (h : Goes e s t) (h' : Moves e t u) : Moves e s u where
  work := h.work.trans h'.work
  move := by
    have hm := h'.move
    have hp := h.phase
    cases e with
    | sender =>
      change t.snd.phase = s.snd.phase at hp
      change sndMayMove t.snd u.snd at hm
      simpa [mayMove, sndMayMove, hp] using hm
    | receiver =>
      change t.rcv.phase = s.rcv.phase at hp
      change rcvMayMove t.rcv u.rcv at hm
      simpa [mayMove, rcvMayMove, hp] using hm
  inv := h'.inv ∘ h.inv

/-- An operation that goes on in its phase, followed by the move that ends the engine's work. -/
theorem moves_bind {α β : Type} {e : Role} {s : State} {P : α → State → Prop} {r : Res α} {k : α → State → Res β}
    (h : r.Spec P (Stops e s)) (hg : ∀ a t, P a t → Goes e s t)
    (hk : ∀ a t, P a t → (k a t).Spec (fun _ u => Moves e t u) (Stops e t)) :
    (r.bind k).Spec (fun _ u => Moves e s u) (Stops e s) :=
  spec_then h hg fun a t ha => spec_mono (hk a t ha) (fun _ _ hu => (hg a t ha).trans_moves hu) fun _ hu => hu

/-! ### The operations of RCV -/

section Receiving
variable (s : State)

/-- RCV.DATA advances `expectedSeq`, of which no invariant speaks (R222). -/
theorem rcvDataBody_moves (f : Body) :
    (rcvDataBody f s).Spec (fun _ t => Moves .receiver s t) (Stops .receiver s) := by
  refine moves_bind (sinkAppend_does _ s) (fun _ _ h => h.goes) fun _ t _ => ?_
  refine moves_bind (record_does .receiver _ t) (fun _ _ h => h.goes) fun _ u _ => ?_
  refine moves_bind (sendFrame_does .receiver u (frameAck_payload_length _)) (fun _ _ h => h.goes) fun _ v _ => ?_
  exact ⟨work_setRcv v _, .inr (.inl rfl), fun h => ⟨h.cause, h.code⟩⟩

theorem rcvEotBody_moves (f : Body) (hp : s.rcv.phase = .wait) :
    (rcvEotBody f s).Spec (fun _ t => Moves .receiver s t) (Stops .receiver s) := by
  refine moves_bind (record_does .receiver _ s) (fun _ _ h => h.goes) fun _ t ht => ?_
  refine moves_bind (sendFrame_does .receiver t (frameEotAck_payload_length _)) (fun _ _ h => h.goes) fun _ u hu => ?_
  have hpu : u.rcv.phase = .wait := by rw [hu.rcv, ht.rcv, hp]
  refine ⟨work_setRcv u _, .inr (.inr ?_), fun h => RcvInv.setPhase h (by simp [hpu]) (by simp)⟩
  rw [hpu]
  exact .inl rfl

theorem rcvOooBody_moves : (rcvOooBody s).Spec (fun _ t => Moves .receiver s t) (Stops .receiver s) :=
  spec_mono (sendFrame_does .receiver s (frameAck_payload_length _)) (fun _ _ h => h.goes.moves) fun _ h => h

theorem rcvIgnoreBody_moves : (rcvIgnoreBody s).Spec (fun _ t => Moves .receiver s t) (Stops .receiver s) :=
  (Goes.refl .receiver s).moves

theorem rcvTimeoutBody_moves : (rcvTimeoutBody s).Spec (fun _ t => Moves .receiver s t) (Stops .receiver s) :=
  (Goes.refl .receiver s).moves

theorem rcvFrameBody_moves (f : Frame) (hp : s.rcv.phase = .wait) :
    (rcvFrameBody f s).Spec (fun _ t => Moves .receiver s t) (Stops .receiver s) := by
  unfold rcvFrameBody
  split
  · cases f.kind with
    | data => exact rcvDataBody_moves s _
    | eot => exact rcvEotBody_moves s _ hp
    | ack => exact rcvIgnoreBody_moves s
    | eotAck => exact rcvIgnoreBody_moves s
  · exact rcvOooBody_moves s

theorem rcvEventBody_moves (a : Answer) (hp : s.rcv.phase = .wait) :
    (rcvEventBody a s).Spec (fun _ t => Moves .receiver s t) (Stops .receiver s) := by
  cases a with
  | error => exact raise_stops _ s
  | timeout => exact rcvTimeoutBody_moves s
  | buffer b =>
    exact moves_bind (decodeOp_does .receiver b s) (fun _ _ h => h.goes) fun f t ht =>
      rcvFrameBody_moves t f (by rw [ht.rcv, hp])
end Receiving

/-! ### What SND's operations write -/

/-- SND's work has gone on to these registers and to this place of the Source's cursor. -/
structure Wrote (s t : State) (x : Sender) (c : Nat) : Prop where
  work : Work .sender s t
  snd : t.snd = x
  cursor : t.src.cursor = c

theorem Wrote.goes {s t : State} {x : Sender} {c : Nat} (h : Wrote s t x c) (hp : x.phase = s.snd.phase)
    (hi : SndInv s.snd → SndInv x) : Goes .sender s t :=
  ⟨h.work, (congrArg Sender.phase h.snd).trans hp, fun hs => (engineInv_sender t).2 (h.snd ▸ hi hs)⟩

theorem Wrote.moves {s t : State} {x : Sender} {c : Nat} (h : Wrote s t x c) (hm : sndMayMove s.snd x)
    (hi : SndInv s.snd → SndInv x) : Moves .sender s t :=
  ⟨h.work, by simpa [mayMove, h.snd] using hm, fun hs => (engineInv_sender t).2 (h.snd ▸ hi hs)⟩

theorem Quiet.wrote {s t : State} (h : Quiet .sender s t) : Wrote s t s.snd s.src.cursor :=
  ⟨h.work, h.snd, by rw [h.src]⟩

theorem Wrote.trans {s t u : State} {x y : Sender} {c d : Nat} (h : Wrote s t x c) (h' : Wrote t u y d) : Wrote s u y d :=
  ⟨h.work.trans h'.work, h'.snd, h'.cursor⟩

theorem wrote_setSnd (s : State) (x : Sender) : Wrote s (s.setSnd x) x s.src.cursor :=
  ⟨work_setSnd s x, rfl, rfl⟩

theorem wrote_refl (s : State) : Wrote s s s.snd s.src.cursor := ⟨Work.refl .sender s, rfl, rfl⟩

/-- TXNEW has found the Source exhausted, or has sent one more chunk, the cursor moving with it (R144). -/
def TookChunk (s t : State) : Prop :=
  Wrote s t { s.snd with srcDone := true } s.src.cursor ∨
    s.snd.sentCount ≠ Config.maxCount ∧ ∃ isLast, Wrote s t (pushWindow s.snd isLast) (s.src.cursor + 1)

theorem TookChunk.goes {s t : State} (h : TookChunk s t) (ho : s.snd.outstanding.toNat < 7) : Goes .sender s t := by
  rcases h with h | ⟨hmax, isLast, h⟩
  · exact h.goes rfl fun hi => hi.congr rfl rfl rfl rfl rfl rfl rfl Iff.rfl
  · exact h.goes rfl fun hi => hi.pushWindow ho hmax isLast

theorem txNewBody_does (s : State) : (txNewBody s).Spec (fun _ t => TookChunk s t) (Stops .sender s) := by
  refine spec_then (srcNext_does s) (fun _ _ h => h.1.goes) ?_
  rintro a t ⟨ht, ⟨d, isLast, rfl, hcur⟩ | ⟨rfl, hcur⟩⟩
  · dsimp only
    split
    · exact raise_stops _ t
    split
    · exact raise_stops _ t
    next hpos hlen =>
      split
      · exact raise_stops _ t
      next hmax =>
        have hgood : t.src.cursor = s.src.cursor + 1 := by
          rw [hcur, srcCursorAfter_good _ (by omega) (by simpa [Config.chunkBytes] using hlen)]
        refine spec_then (sendFrame_does .sender t (chunk_payload_length _ d hlen)) (fun _ _ h => h.goes) fun _ u hu => ?_
        exact .inr ⟨ht.snd ▸ hmax, isLast, (ht.work.trans hu.work).trans (work_setSnd u _),
          by rw [setSnd_snd, hu.snd, ht.snd], by rw [setSnd_src, hu.src, hgood]⟩
  · exact .inl ⟨ht.work.trans (work_setSnd t _), by rw [setSnd_snd, ht.snd], hcur⟩

/-- The Source's cursor stands at the next chunk to send (R28(c)). -/
def cursorAtSent (s : State) : Prop := s.src.cursor = s.snd.sentCount.toNat

/-- What rounds of FILL leave: the flags but `srcDone`, and the cursor at the next chunk if it was there (R28(c), R143). -/
structure Filled (s t : State) : Prop where
  goes : Goes .sender s t
  doNothing : t.snd.doNothing = s.snd.doNothing
  resend : t.snd.resend = s.snd.resend
  sendEot : t.snd.sendEot = s.snd.sendEot
  cursor : cursorAtSent s → cursorAtSent t

theorem Filled.refl (s : State) : Filled s s := ⟨Goes.refl .sender s, rfl, rfl, rfl, id⟩

theorem Filled.trans {s t u : State} (h : Filled s t) (h' : Filled t u) : Filled s u :=
  ⟨h.goes.trans h'.goes, h'.doNothing.trans h.doNothing, h'.resend.trans h.resend, h'.sendEot.trans h.sendEot,
    h'.cursor ∘ h.cursor⟩

theorem TookChunk.filled {s t : State} (h : TookChunk s t) (ho : s.snd.outstanding.toNat < 7) : Filled s t := by
  have hg := h.goes ho
  rcases h with ⟨_, hsnd, hcur⟩ | ⟨hmax, isLast, _, hsnd, hcur⟩
  · refine ⟨hg, by rw [hsnd], by rw [hsnd], by rw [hsnd], fun hs => ?_⟩
    rw [cursorAtSent, hcur, hsnd]
    exact hs
  · refine ⟨hg, by rw [hsnd]; rfl, by rw [hsnd]; rfl, by rw [hsnd]; rfl, fun hs => ?_⟩
    have hsucc : (s.snd.sentCount + 1#32).toNat = s.snd.sentCount.toNat + 1 := by bv_omega
    rw [cursorAtSent, hcur, hsnd, hs]
    exact hsucc.symm

/-- There is nothing for FILL to do (R143). -/
def nothingToFill (sn : Sender) : Prop := isFull sn = true ∨ sn.srcDone = true

theorem nothingToFill_of_seven_le {sn : Sender} (h : 7 ≤ sn.outstanding.toNat) : nothingToFill sn :=
  .inl ((isFull_iff sn).2 (by bv_omega))

/-- Each round exhausts the Source or raises `outstanding`, so as many rounds as the window has room for are enough (R143). -/
theorem fillLoop_does (n : Nat) (s : State) :
    (fillLoop n s).Spec
      (fun _ t => Filled s t ∧ (7 ≤ n + s.snd.outstanding.toNat ∨ s.snd.srcDone = true → nothingToFill t.snd))
      (Stops .sender s) := by
  induction n generalizing s with
  | zero => exact ⟨Filled.refl s, fun h => h.elim (fun h => nothingToFill_of_seven_le (by omega)) .inr⟩
  | succ n ih =>
    unfold fillLoop
    split
    next hc =>
      obtain ⟨ho, hsrc⟩ := hc
      refine spec_then (txNewBody_does s) (fun _ _ h => h.goes ho) fun _ t ht => ?_
      refine spec_mono (ih t) (fun _ u ⟨hf, hn⟩ => ⟨(ht.filled ho).trans hf, fun h => hn ?_⟩) fun _ h => h
      rcases ht with ⟨_, hsnd, _⟩ | ⟨_, isLast, _, hsnd, _⟩
      · exact .inr (by rw [hsnd])
      · have hout : t.snd.outstanding.toNat = s.snd.outstanding.toNat + 1 := by rw [hsnd]; exact outstanding_succ ho
        rcases h with h | h
        · exact .inl (by omega)
        · simp [hsrc] at h
    next hc =>
      refine ⟨Filled.refl s, fun _ => ?_⟩
      by_cases ho : s.snd.outstanding.toNat < 7
      · exact .inr (by simpa [Config.windowSize, ho] using hc)
      · exact nothingToFill_of_seven_le (by omega)

theorem fillBody_does (s : State) :
    (fillBody s).Spec (fun _ t => Filled s t ∧ nothingToFill t.snd) (Stops .sender s) :=
  spec_mono (fillLoop_does Config.windowSize s) (fun _ _ ⟨hf, hn⟩ => ⟨hf, hn (.inl (Nat.le_add_right 7 _))⟩) fun _ h => h

theorem cycleFill_does (s : State) :
    (cycleFill s).Spec
      (fun _ t => Filled s t ∧ (s.snd.doNothing = true → t.snd = s.snd) ∧
        (s.snd.doNothing = false → nothingToFill t.snd))
      (Stops .sender s) := by
  unfold cycleFill
  split
  next hc =>
    exact spec_mono (fillBody_does s) (fun _ _ ⟨hf, hn⟩ => ⟨hf, fun h => by simp [hc.1] at h, fun _ => hn⟩) fun _ h => h
  next hc =>
    refine ⟨Filled.refl s, fun _ => rfl, fun hd => ?_⟩
    by_cases hf : isFull s.snd = true
    · exact .inl hf
    · exact .inr (by simpa [hd, hf] using hc)

theorem txOldBody_does (en : Entry) (s : State) :
    (txOldBody en s).Spec (fun _ t => Called .sender s t) (Stops .sender s) := by
  refine spec_then (srcSeek_does _ s) (fun _ _ h => h.1.goes) fun _ t ht => ?_
  refine spec_then (srcNext_does t) (fun _ _ h => h.1.goes) fun a u hu => ?_
  cases a with
  | exhausted => exact raise_stops _ u
  | chunk d isLast =>
    dsimp only
    split
    · exact raise_stops _ u
    split
    · exact raise_stops _ u
    next hlen =>
      exact spec_mono (sendFrame_does .sender u (chunk_payload_length _ d hlen))
        (fun _ _ hv => (ht.1.trans hu.1).trans hv.toCalled) fun _ h => h

theorem txOldAll_does (l : List Entry) (s : State) :
    (txOldAll l s).Spec (fun _ t => Called .sender s t) (Stops .sender s) := by
  induction l generalizing s with
  | nil => exact Called.refl .sender s
  | cons en rest ih =>
    exact spec_then (txOldBody_does en s) (fun _ _ h => h.goes) fun _ t ht =>
      spec_mono (ih t) (fun _ _ hu => ht.trans hu) fun _ h => h

/-- RESEND puts the cursor back where R28(c) wants it (R145). -/
theorem resendBody_does (s : State) :
    (resendBody s).Spec (fun _ t => Wrote s t { s.snd with resend := false } s.snd.sentCount.toNat) (Stops .sender s) := by
  refine spec_then (txOldAll_does _ s) (fun _ _ h => h.goes) fun _ t ht => ?_
  refine spec_then (srcSeek_does _ t) (fun _ _ h => h.1.goes) fun _ u ⟨hu, hcur⟩ => ?_
  exact ⟨(ht.work.trans hu.work).trans (work_setSnd u _), by rw [setSnd_snd, hu.snd, ht.snd],
    by rw [setSnd_src, hcur, ht.snd]⟩

theorem cycleResend_does (s : State) :
    (cycleResend s).Spec (fun _ t => ∃ c, Wrote s t { s.snd with resend := false } c ∧ (cursorAtSent s → cursorAtSent t))
      (Stops .sender s) := by
  unfold cycleResend
  split
  next =>
    refine spec_mono (resendBody_does s) (fun _ t ht => ⟨_, ht, fun _ => ?_⟩) fun _ h => h
    rw [cursorAtSent, ht.cursor, ht.snd]
  next hr =>
    have hsnd : { s.snd with resend := false } = s.snd := by
      rw [Bool.not_eq_true] at hr
      rw [← hr]
    exact ⟨_, by rw [hsnd]; exact wrote_refl s, id⟩

/-- EOT.SEND (R200). -/
theorem eotSendBody_does (s : State) :
    (eotSendBody s).Spec (fun _ t => Wrote s t { s.snd with phase := .eotWait } s.src.cursor) (Stops .sender s) := by
  refine spec_then (sendFrame_does .sender s (frameEot_payload_length _)) (fun _ _ h => h.goes) fun _ t ht => ?_
  exact ⟨ht.work.trans (work_setSnd t _), by rw [setSndPhase_snd, ht.snd], by rw [setSndPhase_src, ht.src]⟩

/-- What the answer to a pending receive in WAIT can write: entries popped, none of them when the frame is discarded or ignored
(R172, R174, R175, R178); a resynchronization (R177); or the flags of TIMEOUT (R171). -/
inductive Answered (s t : State) : Prop
  | popped (k : Nat) (hk : k ≤ s.snd.outstanding.toNat) (h : Wrote s t (popMany k s.snd) s.src.cursor)
  | resynced (n : Seq) (a : Count) (h : Wrote s t { resyncRegs n a s.snd with doNothing := true } a.toNat)
  | timedOut (h : Wrote s t (timeoutRegs s.snd) s.src.cursor)

/-- TIMEOUT writes flags alone (R171). -/
theorem timeoutRegs_frame (sn : Sender) :
    (timeoutRegs sn).phase = sn.phase ∧ (timeoutRegs sn).sentCount = sn.sentCount ∧ (SndInv sn → SndInv (timeoutRegs sn)) := by
  unfold timeoutRegs
  split
  · exact ⟨rfl, rfl, fun h => h.congr rfl rfl rfl rfl rfl rfl rfl Iff.rfl⟩
  split
  · exact ⟨rfl, rfl, id⟩
  · exact ⟨rfl, rfl, fun h => h.congr rfl rfl rfl rfl rfl rfl rfl Iff.rfl⟩

theorem Answered.goes {s t : State} (h : Answered s t) : Goes .sender s t := by
  cases h with
  | popped k hk h => exact h.goes (popMany_frame k s.snd).1 fun hi => hi.popMany hk
  | resynced n a h => exact h.goes rfl fun hi => hi.resync n a
  | timedOut h =>
    obtain ⟨hp, _, hi⟩ := timeoutRegs_frame s.snd
    exact h.goes hp hi

/-- A quiet call before it changes nothing of what an answer writes. -/
theorem Answered.of_quiet {s t u : State} (hq : Quiet .sender s t) (h : Answered t u) : Answered s u := by
  cases h with
  | popped k hk h => exact .popped k (hq.snd ▸ hk) (hq.wrote.trans (by simpa [hq.snd, hq.src] using h))
  | resynced n a h => exact .resynced n a (hq.wrote.trans (by simpa [hq.snd] using h))
  | timedOut h => exact .timedOut (hq.wrote.trans (by simpa [hq.snd, hq.src] using h))

theorem answered_refl (s : State) : Answered s s := .popped 0 (Nat.zero_le _) (wrote_refl s)

theorem ackDiscardBody_answered (s : State) :
    (ackDiscardBody s).Spec (fun _ t => Answered s t) (Stops .sender s) := answered_refl s

theorem sndIgnoreBody_answered (s : State) :
    (sndIgnoreBody s).Spec (fun _ t => Answered s t) (Stops .sender s) := answered_refl s

theorem timeoutBody_answered (s : State) :
    (timeoutBody s).Spec (fun _ t => Answered s t) (Stops .sender s) := .timedOut (wrote_setSnd s _)

theorem resyncBody_does (n : Seq) (s : State) :
    (resyncBody n s).Spec (fun _ t => ∃ a : Count, Wrote s t { resyncRegs n a s.snd with doNothing := true } a.toNat)
      (Stops .sender s) := by
  refine spec_mono (resyncBody_spec n s) ?_ ?_
  · rintro _ _ ⟨a, r, _, rfl⟩
    exact ⟨a, ((work_counted .sender r s).trans (work_setSrc _ _)).trans (work_setSnd _ _), rfl, rfl⟩
  · rintro _ (⟨_, rfl⟩ | rfl)
    · exact stops_fault .sender _ s
    · exact stops_reset .sender s

theorem resyncBody_answered (n : Seq) (s : State) :
    (resyncBody n s).Spec (fun _ t => Answered s t) (Stops .sender s) :=
  spec_mono (resyncBody_does n s) (fun _ _ ⟨a, h⟩ => .resynced n a h) fun _ h => h

theorem ackCumBody_answered {k : Nat} {s : State} (hk : k ≤ s.snd.outstanding.toNat) :
    (ackCumBody k s).Spec (fun _ t => Answered s t) (Stops .sender s) :=
  .popped k hk (wrote_setSnd s _)

theorem ackLateBody_answered (s : State) :
    (ackLateBody s).Spec (fun _ t => Answered s t) (Stops .sender s) := ackCumBody_answered le_rfl

/-- The count of ACK's scan is at most the entries in flight (R173). -/
theorem scan_le_outstanding {n : Seq} {sn : Sender} {c : Nat} (h : scanWindow n (window sn) = some c) :
    c ≤ sn.outstanding.toNat :=
  (scanWindow_le h).trans (length_window_le sn)

theorem ackBody_answered (n : Seq) (s : State) : (ackBody n s).Spec (fun _ t => Answered s t) (Stops .sender s) := by
  unfold ackBody
  split
  · exact ackDiscardBody_answered s
  refine spec_then (record_does .sender _ s) (fun _ _ h => h.goes) fun _ t ht => ?_
  refine spec_mono (P := fun _ u => Answered t u) ?_ (fun _ _ hu => hu.of_quiet ht) fun _ h => h
  split
  next c hc => exact ackCumBody_answered (scan_le_outstanding hc)
  split
  · exact ackLateBody_answered t
  · exact resyncBody_answered n t

theorem sndFrameBody_answered (f : Frame) (s : State) :
    (sndFrameBody f s).Spec (fun _ t => Answered s t) (Stops .sender s) := by
  unfold sndFrameBody
  cases f.kind with
  | ack => exact ackBody_answered f.seq s
  | data => exact sndIgnoreBody_answered s
  | eotAck => exact sndIgnoreBody_answered s
  | eot => exact sndIgnoreBody_answered s

theorem sndAnswerBody_answered (a : Answer) (s : State) :
    (sndAnswerBody a s).Spec (fun _ t => Answered s t) (Stops .sender s) := by
  cases a with
  | error => exact raise_stops _ s
  | timeout => exact timeoutBody_answered s
  | buffer b =>
    exact spec_then (decodeOp_does .sender b s) (fun _ _ h => h.goes) fun f t ht =>
      spec_mono (sndFrameBody_answered f t) (fun _ _ hu => hu.of_quiet ht) fun _ h => h

/-- What the answer to a pending receive in EOTWAIT can write (R202, R203, R204). -/
inductive Handshaken (s t : State) : Prop
  | acked (h : Wrote s t { s.snd with phase := .done } s.src.cursor)
  | resynced (n : Seq) (a : Count)
      (h : Wrote s t { resyncRegs n a s.snd with doNothing := true, sendEot := false, phase := .cycle } a.toNat)
  | timedOut (h : Wrote s t { s.snd with phase := .cycle } s.src.cursor)

theorem Handshaken.of_quiet {s t u : State} (hq : Quiet .sender s t) (h : Handshaken t u) : Handshaken s u := by
  cases h with
  | acked h => exact .acked (hq.wrote.trans (by simpa [hq.snd, hq.src] using h))
  | resynced n a h => exact .resynced n a (hq.wrote.trans (by simpa [hq.snd] using h))
  | timedOut h => exact .timedOut (hq.wrote.trans (by simpa [hq.snd, hq.src] using h))

theorem Handshaken.moves {s t : State} (h : Handshaken s t) (hp : s.snd.phase = .eotWait) : Moves .sender s t := by
  have hnf : s.snd.phase ≠ .fault := by simp [hp]
  cases h with
  | acked h => exact h.moves (.inr (.inr (by simp [hp]))) fun hi => hi.setPhase hnf (by simp)
  | resynced n a h =>
    refine h.moves (.inr (.inr (by simp [hp]))) fun hi => ?_
    exact ((hi.resync n a).setPhase (p := .cycle) hnf (by simp)).congr rfl rfl rfl rfl rfl rfl rfl Iff.rfl
  | timedOut h => exact h.moves (.inr (.inr (by simp [hp]))) fun hi => hi.setPhase hnf (by simp)

theorem eotAckedBody_does (n : Seq) (s : State) :
    (eotAckedBody n s).Spec (fun _ t => Handshaken s t) (Stops .sender s) := by
  refine spec_then (record_does .sender _ s) (fun _ _ h => h.goes) fun _ t ht => ?_
  exact Handshaken.of_quiet ht (.acked (wrote_setSnd t _))

theorem eotOtherBody_does (n : Seq) (s : State) :
    (eotOtherBody n s).Spec (fun _ t => Handshaken s t) (Stops .sender s) := by
  refine spec_then (resyncBody_does n s) (fun _ _ ⟨a, h⟩ => h.goes rfl fun hi => hi.resync n a) fun _ t ⟨a, ht⟩ => ?_
  exact .resynced n a ⟨ht.work.trans (work_setSnd t _), by rw [setSnd_snd, ht.snd], ht.cursor⟩

theorem eotTimeoutBody_does (s : State) : (eotTimeoutBody s).Spec (fun _ t => Handshaken s t) (Stops .sender s) :=
  .timedOut (wrote_setSnd s _)

theorem eotEventBody_does (a : Answer) (s : State) :
    (eotEventBody a s).Spec (fun _ t => Handshaken s t) (Stops .sender s) := by
  cases a with
  | error => exact raise_stops _ s
  | timeout => exact eotTimeoutBody_does s
  | buffer b =>
    refine spec_then (decodeOp_does .sender b s) (fun _ _ h => h.goes) fun f t ht => ?_
    refine spec_mono (P := fun _ u => Handshaken t u) ?_ (fun _ _ hu => hu.of_quiet ht) fun _ h => h
    unfold eotFrameBody
    cases f.kind with
    | eotAck => exact eotAckedBody_does f.seq t
    | ack => exact eotOtherBody_does f.seq t
    | data => exact eotOtherBody_does f.seq t
    | eot => exact eotOtherBody_does f.seq t

/-! ### The cursor and the flags, phase by phase -/

/-- What the protocol invariant says beside the link invariant: the cursor's and the flags' part (R28(c), R31, R200, R292). -/
structure Orderly (s : State) : Prop where
  cursor : CursorInv s
  flags : FlagInv s.snd

theorem protocolInv_iff (s : State) : ProtocolInv s ↔ LinkInv s ∧ Orderly s :=
  ⟨fun h => ⟨h.link, h.cursor, h.flags⟩, fun ⟨hl, ho⟩ => ⟨hl, ho.cursor, ho.flags⟩⟩

theorem Orderly.cursorAtSent {s : State} (h : Orderly s) (hr : running s.snd = true) : cursorAtSent s := h.cursor hr

/-- Neither part speaks of anything but SND's registers and the Source. -/
theorem Orderly.congr {s t : State} (h : Orderly s) (hsnd : t.snd = s.snd) (hsrc : t.src = s.src) : Orderly t :=
  ⟨by unfold CursorInv; rw [hsnd, hsrc]; exact h.cursor, by rw [hsnd]; exact h.flags⟩

/-- With SND at reset no transfer runs, and the flags are as R40 says. -/
theorem orderly_of_reset {s : State} (h : s.snd = senderReset) : Orderly s :=
  ⟨fun hr => by simp [h, running, senderReset] at hr, h ▸ flagInv_reset⟩

theorem running_iff (sn : Sender) : running sn = true ↔ sn.phase = .cycle ∨ sn.phase = .wait ∨ sn.phase = .eotWait := by
  simp [running, or_assoc]

/-- In DONE and in FAULT neither part asks for anything. -/
theorem orderly_of_ended {s : State} (h : s.snd.phase = .done ∨ s.snd.phase = .fault) : Orderly s := by
  have hrun : running s.snd = false := by rcases h with h | h <;> simp [running, h]
  have hne : ∀ {p : SndPhase}, p ≠ .done → p ≠ .fault → s.snd.phase ≠ p := fun hd hf hp =>
    h.elim (fun h => hd (hp.symm.trans h)) fun h => hf (hp.symm.trans h)
  exact
    { cursor := fun hr => by simp [hrun] at hr
      flags :=
        { atIdle := fun hp => absurd hp (hne nofun nofun)
          atResend := fun hp => absurd hp (hne nofun nofun)
          atSendEot := fun hp => absurd hp (hne nofun nofun)
          atWait := fun hp => absurd hp (hne nofun nofun)
          atEotWait := fun hp => absurd hp (hne nofun nofun)
          atDoNothing := fun hr => by simp [hrun] at hr } }

theorem Stops.orderly {s t : State} (h : Stops .sender s t) : Orderly t := by
  rcases h.out with hr | hf
  · exact orderly_of_reset hr
  · exact orderly_of_ended (.inr hf)

/-- In CYCLE: the requests' conditions, and sending suppressed only with an empty window and a rewound Source. -/
theorem orderly_of_cycle {s : State} (hp : s.snd.phase = .cycle) (hc : cursorAtSent s)
    (hresend : s.snd.resend = true → s.snd.outstanding ≠ 0#3 ∧ s.snd.doNothing = false ∧ nothingToFill s.snd)
    (heot : s.snd.sendEot = true →
      s.snd.outstanding = 0#3 ∧ s.snd.doNothing = false ∧ s.snd.srcDone = true ∧ s.snd.resend = false)
    (hquiet : s.snd.doNothing = true → s.snd.outstanding = 0#3 ∧ s.snd.srcDone = false) : Orderly s where
  cursor _ := hc
  flags :=
    { atIdle := fun h => by simp [hp] at h
      atResend := fun _ => hresend
      atSendEot := fun _ => heot
      atWait := fun h => by simp [hp] at h
      atEotWait := fun h => by simp [hp] at h
      atDoNothing := fun _ => hquiet }

/-- In WAIT: nothing is requested, and there is nothing to fill unless sending is suppressed. -/
theorem orderly_of_wait {s : State} (hp : s.snd.phase = .wait) (hc : cursorAtSent s) (hresend : s.snd.resend = false)
    (heot : s.snd.sendEot = false) (hfill : s.snd.doNothing = false → nothingToFill s.snd)
    (hquiet : s.snd.doNothing = true → s.snd.outstanding = 0#3 ∧ s.snd.srcDone = false) : Orderly s where
  cursor _ := hc
  flags :=
    { atIdle := fun h => by simp [hp] at h
      atResend := fun h => by simp [hp] at h
      atSendEot := fun h => by simp [hp] at h
      atWait := fun _ => ⟨hresend, heot, hfill⟩
      atEotWait := fun h => by simp [hp] at h
      atDoNothing := fun _ => hquiet }

/-- In EOTWAIT: the handshake's request stands. -/
theorem orderly_of_eotWait {s : State} (hp : s.snd.phase = .eotWait) (hc : cursorAtSent s)
    (h : s.snd.outstanding = 0#3 ∧ s.snd.doNothing = false ∧ s.snd.srcDone = true ∧ s.snd.sendEot = true ∧
      s.snd.resend = false) : Orderly s where
  cursor _ := hc
  flags :=
    { atIdle := fun h => by simp [hp] at h
      atResend := fun h => by simp [hp] at h
      atSendEot := fun h => by simp [hp] at h
      atWait := fun h => by simp [hp] at h
      atEotWait := fun _ => h
      atDoNothing := fun _ hd => by simp [h.2.1] at hd }

/-- The cursor stays at the next chunk where SND's work writes neither the count nor the cursor. -/
theorem Wrote.cursorAtSent {s t : State} {x : Sender} (h : Wrote s t x s.src.cursor) (hx : x.sentCount = s.snd.sentCount)
    (hs : cursorAtSent s) : cursorAtSent t := by
  rw [Machine.cursorAtSent, h.cursor, h.snd, hx]
  exact hs

/-! ### SND.CYCLE -/

theorem eotSent_moves {s t : State} (hp : s.snd.phase = .cycle) (h : Wrote s t { s.snd with phase := .eotWait } s.src.cursor) :
    Moves .sender s t :=
  h.moves (.inr (.inr (by simp [hp]))) fun hi => hi.setPhase (by simp [hp]) (by simp)

/-- EOT.SEND goes to EOTWAIT with the request it found in CYCLE (R200). -/
theorem eotSent_orderly {s t : State} (hp : s.snd.phase = .cycle) (he : s.snd.sendEot = true) (ho : Orderly s)
    (h : Wrote s t { s.snd with phase := .eotWait } s.src.cursor) : Orderly t := by
  obtain ⟨hout, hd, hsrc, hres⟩ := ho.flags.atSendEot hp he
  have hc : cursorAtSent t := h.cursorAtSent rfl (ho.cursorAtSent (by simp [running, hp]))
  refine orderly_of_eotWait ?_ hc ?_ <;> rw [h.snd]
  exact ⟨hout, hd, hsrc, he, hres⟩

/-- FILL has left nothing to fill unless sending is suppressed, RESEND no request, so WAIT is entered as R31 and R292 say. -/
theorem cycled_orderly {s t u : State} (hp : s.snd.phase = .cycle) (he : s.snd.sendEot = false) (ho : Orderly s)
    (hf : Filled s t) (hd : s.snd.doNothing = true → t.snd = s.snd) (hn : s.snd.doNothing = false → nothingToFill t.snd)
    {c : Nat} (hw : Wrote t u { t.snd with resend := false } c) (hc : cursorAtSent t → cursorAtSent u) :
    Orderly (u.setSndPhase .wait) := by
  have hrun : running s.snd = true := by simp [running, hp]
  have hcu : cursorAtSent u := hc (hf.cursor (ho.cursorAtSent hrun))
  refine orderly_of_wait rfl hcu ?_ ?_ (fun h => ?_) fun h => ?_ <;> simp only [setSndPhase_snd, hw.snd] at *
  · rw [hf.sendEot, he]
  · exact hn (hf.doNothing ▸ h)
  · rw [hf.doNothing] at h
    rw [hd h]
    exact ho.flags.atDoNothing hrun h

/-- SND.CYCLE in CYCLE ends in WAIT or EOTWAIT, and keeps the cursor's and the flags' part (R141). -/
theorem sndCycleBody_does (s : State) (hp : s.snd.phase = .cycle) :
    (sndCycleBody s).Spec (fun _ t => Moves .sender s t ∧ (Orderly s → Orderly t)) (Stops .sender s) := by
  unfold sndCycleBody
  split
  next he =>
    exact spec_mono (eotSendBody_does s) (fun _ _ h => ⟨eotSent_moves hp h, fun ho => eotSent_orderly hp he ho h⟩)
      fun _ h => h
  next he =>
    refine spec_then (cycleFill_does s) (fun _ _ h => h.1.goes) fun _ t ⟨hf, hd, hn⟩ => ?_
    have hgo : ∀ {u c}, Wrote t u { t.snd with resend := false } c → Goes .sender t u := fun h =>
      h.goes rfl fun hi => hi.congr rfl rfl rfl rfl rfl rfl rfl Iff.rfl
    refine spec_then (cycleResend_does t) (fun _ _ ⟨c, h, _⟩ => hgo h) fun _ u ⟨c, hw, hc⟩ => ?_
    have hsu : Goes .sender s u := hf.goes.trans (hgo hw)
    have hpu : u.snd.phase = .cycle := Eq.trans hsu.phase hp
    refine ⟨hsu.trans_moves ⟨work_setSnd u _, .inr (.inr ?_), fun hi => SndInv.setPhase hi (by simp [hpu]) (by simp)⟩,
      fun ho => cycled_orderly hp (by simpa using he) ho hf hd hn hw hc⟩
    rw [hpu]
    exact .inl rfl

/-! ### The events -/

/-- TIMEOUT with an empty window takes sending up again, or requests the handshake (R171). -/
theorem timeoutRegs_of_empty {sn : Sender} (h : sn.outstanding = 0#3) :
    timeoutRegs sn = { sn with doNothing := false, sendEot := sn.sendEot || sn.srcDone } := if_pos h

/-- TIMEOUT with frames in flight requests a retransmission (R171). -/
theorem timeoutRegs_of_inFlight {sn : Sender} (h : sn.outstanding ≠ 0#3) (hd : sn.doNothing = false) :
    timeoutRegs sn = { sn with resend := true } := by
  simp [timeoutRegs, h, hd]

theorem timedOut_orderly {s t : State} (hp : s.snd.phase = .wait) (ho : Orderly s)
    (h : Wrote s t (timeoutRegs s.snd) s.src.cursor) : Orderly (t.setSndPhase .cycle) := by
  obtain ⟨hres, heot, hfill⟩ := ho.flags.atWait hp
  have hrun : running s.snd = true := by simp [running, hp]
  have hc : cursorAtSent t := h.cursorAtSent (timeoutRegs_frame s.snd).2.1 (ho.cursorAtSent hrun)
  by_cases hout : s.snd.outstanding = 0#3
  · have ht := h.snd.trans (timeoutRegs_of_empty hout)
    refine orderly_of_cycle rfl hc ?_ ?_ ?_ <;> simp [ht, hres, heot, hout]
  · have hd : s.snd.doNothing = false := by
      by_contra hd
      exact hout (ho.flags.atDoNothing hrun (by simpa using hd)).1
    have ht := h.snd.trans (timeoutRegs_of_inFlight hout hd)
    refine orderly_of_cycle rfl hc (fun _ => ?_) ?_ ?_ <;> simp only [setSndPhase_snd, ht]
    · exact ⟨hout, hd, hfill hd⟩
    · simp [heot]
    · simp [hd]

/-- From WAIT, with nothing requested, what an answer writes is in order for CYCLE (R31, R171, R177). -/
theorem Answered.orderly {s t : State} (h : Answered s t) (hp : s.snd.phase = .wait) (ho : Orderly s) :
    Orderly (t.setSndPhase .cycle) := by
  obtain ⟨hres, heot, hfill⟩ := ho.flags.atWait hp
  have hrun : running s.snd = true := by simp [running, hp]
  cases h with
  | popped k hk h =>
    obtain ⟨-, hsent, hd, hr, he⟩ := popMany_frame k s.snd
    have hc : cursorAtSent t := h.cursorAtSent hsent (ho.cursorAtSent hrun)
    refine orderly_of_cycle rfl hc ?_ ?_ ?_ <;> simp only [setSndPhase_snd, h.snd]
    · simp [hr, hres]
    · simp [he, heot]
    · rw [hd]
      intro hdn
      have hquiet := ho.flags.atDoNothing hrun hdn
      obtain rfl : k = 0 := by simpa [hquiet.1] using hk
      exact hquiet
  | resynced n a h =>
    have hc : cursorAtSent t := by rw [cursorAtSent, h.cursor, h.snd]; rfl
    refine orderly_of_cycle rfl hc ?_ ?_ ?_ <;> simp [h.snd, resyncRegs, hres, heot]
  | timedOut h => exact timedOut_orderly hp ho h

/-- From EOTWAIT the answer leads to DONE, or back to CYCLE in order (R202, R203, R204). -/
theorem Handshaken.orderly {s t : State} (h : Handshaken s t) (hp : s.snd.phase = .eotWait) (ho : Orderly s) : Orderly t := by
  obtain ⟨hout, hd, hsrc, heot, hres⟩ := ho.flags.atEotWait hp
  cases h with
  | acked h => exact orderly_of_ended (.inl (by rw [h.snd]))
  | resynced n a h =>
    have hc : cursorAtSent t := by rw [cursorAtSent, h.cursor, h.snd]; rfl
    refine orderly_of_cycle (by rw [h.snd]) hc ?_ ?_ ?_ <;> simp [h.snd, resyncRegs, hres]
  | timedOut h =>
    have hc : cursorAtSent t := h.cursorAtSent rfl (ho.cursorAtSent (by simp [running, hp]))
    refine orderly_of_cycle (by rw [h.snd]) hc ?_ ?_ ?_ <;> simp [h.snd, hres, hout, hd, hsrc]

/-- SND.EVENT in WAIT ends in CYCLE, and keeps the cursor's and the flags' part (R170). -/
theorem sndEventBody_does (a : Answer) (s : State) (hp : s.snd.phase = .wait) :
    (sndEventBody a s).Spec (fun _ t => Moves .sender s t ∧ (Orderly s → Orderly t)) (Stops .sender s) := by
  refine spec_then (sndAnswerBody_answered a s) (fun _ _ h => h.goes) fun _ t ht => ?_
  have hpt : t.snd.phase = .wait := Eq.trans ht.goes.phase hp
  refine ⟨ht.goes.trans_moves ⟨work_setSnd t _, .inr (.inr ?_), fun hi => SndInv.setPhase hi (by simp [hpt]) (by simp)⟩,
    fun ho => ht.orderly hp ho⟩
  rw [hpt]
  exact .inl rfl

/-! ### What a row that answers a next state has done -/

/-- An engine has not been started (R34, R37). -/
def inIdle (e : Role) (s : State) : Prop :=
  match e with
  | .sender => s.snd.phase = .idle
  | .receiver => s.rcv.phase = .idle

/-- A started engine: SND in CYCLE, RCV in WAIT (R140, R220). -/
def started (e : Role) (s : State) : State :=
  match e with
  | .sender => s.setSndPhase .cycle
  | .receiver => s.setRcvPhase .wait

/-- What a row of the engine of `e` has done where it answers a next state: its work, in a phase in which the block performs
rows; ENCODE, which has no phase (R120); a start in IDLE (R140, R220), or in any other phase, where it does nothing; an rst
(R280). -/
inductive Ran (e : Role) (s : State) : State → Prop
  | worked {t : State} (ha : active e s) (h : Moves e s t) : Ran e s t
  | encoded (f : Frame) (hp : f.payload.length = 30) : Ran e s (encoded e f s)
  | started (h : inIdle e s) (hc : e = .sender → s.src.cursor = 0) : Ran e s (started e s)
  | still : Ran e s s
  | reset : Ran e s (resetEngine e s)

theorem started_moves {e : Role} {s : State} (h : inIdle e s) : Moves e s (started e s) := by
  cases e with
  | sender =>
    have hp : s.snd.phase = .idle := h
    refine ⟨work_setSnd s _, .inr (.inr ?_), fun hi => SndInv.setPhase hi (by simp [hp]) (by simp)⟩
    rw [hp]
    rfl
  | receiver =>
    have hp : s.rcv.phase = .idle := h
    refine ⟨work_setRcv s _, .inr (.inr ?_), fun hi => RcvInv.setPhase hi (by simp [hp]) (by simp)⟩
    rw [hp]
    rfl

theorem reset_moves (e : Role) (s : State) : Moves e s (resetEngine e s) :=
  ⟨work_resetEngine e s, by cases e <;> exact .inl rfl, (stops_reset e s).inv⟩

/-- Whatever it was, the engine's phase moved as its table says, and the engine's part of the invariant is kept. -/
theorem Ran.moves {e : Role} {s t : State} (h : Ran e s t) : Moves e s t := by
  cases h with
  | worked _ h => exact h
  | encoded f hp => exact (quiet_encoded e s hp).goes.moves
  | started h _ => exact started_moves h
  | still => exact (Goes.refl e s).moves
  | reset => exact reset_moves e s

section Rows
variable {s t : State}

/-- A row of the table that is performed only in a phase of its engine. -/
theorem row_ran {α : Type} {e : Role} {r : Res α} {c : Bool} {m : String} (ha : c = true → active e s)
    (hr : c = true → r.Spec (fun _ t => Moves e s t) (Stops e s)) (h : onlyWhen c m r.outcome = .next t) : Ran e s t := by
  obtain ⟨hc, ho⟩ := onlyWhen_eq_next h
  refine .worked (ha hc) (spec_next (spec_mono (hr hc) (fun _ _ h => h) fun _ hs => hs.moves (ha hc)) ho)

/-- The phase that a row's context names first. -/
theorem phase_of_and {b : Bool} {P : Prop} [Decidable P] (h : (decide P && b) = true) : P :=
  of_decide_eq_true (Bool.and_eq_true_iff.1 h).1

theorem cycle_of_inCycle (h : inCycle s.snd = true) : s.snd.phase = .cycle := phase_of_and h

theorem cycle_of_and {b : Bool} (h : (inCycle s.snd && b) = true) : s.snd.phase = .cycle :=
  cycle_of_inCycle (Bool.and_eq_true_iff.1 h).1

theorem active_of_receiving {e : Role} (h : receiving e s = true) : active e s := by
  cases e with
  | sender =>
    rw [receiving, Bool.or_eq_true, decide_eq_true_eq, decide_eq_true_eq] at h
    exact (running_iff s.snd).2 (.inr h)
  | receiver =>
    have hp : s.rcv.phase = .wait := of_decide_eq_true h
    exact hp

/-- A row inside SND.EVENT, run alone in WAIT. -/
theorem wait_row_ran {r : Res Unit} {c : Bool} {m : String} (hc : c = true → s.snd.phase = .wait)
    (hr : r.Spec (fun _ t => Answered s t) (Stops .sender s)) (h : onlyWhen c m r.outcome = .next t) : Ran .sender s t :=
  row_ran (fun h => (running_iff s.snd).2 (.inr (.inl (hc h))))
    (fun _ => spec_mono hr (fun _ _ h => h.goes.moves) fun _ h => h) h

/-- A row of the handshake, in EOTWAIT. -/
theorem eotWait_row_ran {r : Res Unit} {m : String} (hr : r.Spec (fun _ t => Handshaken s t) (Stops .sender s))
    (h : onlyWhen (inEotWait s) m r.outcome = .next t) : Ran .sender s t :=
  row_ran (fun h => (running_iff s.snd).2 (.inr (.inr (of_decide_eq_true h))))
    (fun hc => spec_mono hr (fun _ _ h => h.moves (of_decide_eq_true hc)) fun _ h => h) h

/-- A row of CYCLE. -/
theorem cycle_row_ran {r : Res Unit} {c : Bool} {m : String} (hc : c = true → s.snd.phase = .cycle)
    (hr : c = true → r.Spec (fun _ t => Moves .sender s t) (Stops .sender s)) (h : onlyWhen c m r.outcome = .next t) :
    Ran .sender s t :=
  row_ran (fun h => (running_iff s.snd).2 (.inl (hc h))) hr h

/-- A row inside RCV.EVENT, in WAIT. -/
theorem rcv_row_ran {r : Res Unit} {c : Bool} {m : String} (hc : c = true → s.rcv.phase = .wait)
    (hr : c = true → r.Spec (fun _ t => Moves .receiver s t) (Stops .receiver s)) (h : onlyWhen c m r.outcome = .next t) :
    Ran .receiver s t :=
  row_ran hc hr h

theorem encodeOp_ran {e : Role} {f : Frame} (hp : f.payload.length = 30) (h : (encodeOp e f s).outcome = .next t) :
    Ran e s t := by
  rw [encodeOp_eq e f s hp] at h
  cases h
  exact .encoded f hp

theorem execData_ran {n : Seq} {len : Len} {d : List Byte} (h : execData n len d s = .next t) : Ran .sender s t := by
  unfold execData at h
  split at h
  next hr =>
    obtain ⟨hlen, hd⟩ := hr
    exact encodeOp_ran (frameData_payload_length n len d (hd.trans_le hlen)) h
  next => cases h

theorem execEncode_ran {e : Role} {f : Frame} (h : execEncode e f s = .next t) : Ran e s t := by
  unfold execEncode at h
  split at h
  next hf => exact encodeOp_ran ((frameWf_iff f).1 hf).2 h
  next => cases h

theorem execDecode_ran {e : Role} {b : Datagram} (h : execDecode e b s = .next t) : Ran e s t :=
  row_ran active_of_receiving (fun _ => spec_mono (decodeOp_does e b s) (fun _ _ h => h.goes.moves) fun _ h => h) h

theorem execAckCum_ran {f : Body} (h : execAckCum f s = .next t) : Ran .sender s t := by
  refine wait_row_ran phase_of_and (ackCumBody_answered ?_) h
  cases hc : scanWindow f.seq (window s.snd) with
  | none => exact Nat.zero_le _
  | some c => exact scan_le_outstanding hc

theorem execResync_ran {n : Seq} (h : execResync n s = .next t) : Ran .sender s t := by
  refine row_ran (fun hc => ?_) (fun _ => spec_mono (resyncBody_answered n s) (fun _ _ h => h.goes.moves) fun _ h => h) h
  rw [inWait, Bool.or_eq_true, decide_eq_true_eq, decide_eq_true_eq] at hc
  exact (running_iff s.snd).2 (.inr hc)

theorem execSndEvent_ran {a : Answer} (h : execSndEvent a s = .next t) : Ran .sender s t :=
  row_ran (fun hc => (running_iff s.snd).2 (.inr (.inl (of_decide_eq_true hc))))
    (fun hc => spec_mono (sndEventBody_does a s (of_decide_eq_true hc)) (fun _ _ h => h.1) fun _ h => h) h

theorem execSndCycle_ran (h : execSndCycle s = .next t) : Ran .sender s t :=
  cycle_row_ran of_decide_eq_true
    (fun hc => spec_mono (sndCycleBody_does s (of_decide_eq_true hc)) (fun _ _ h => h.1) fun _ h => h) h

theorem execEotSend_ran (h : execEotSend s = .next t) : Ran .sender s t :=
  cycle_row_ran phase_of_and
    (fun hc => spec_mono (eotSendBody_does s) (fun _ _ h => eotSent_moves (phase_of_and hc) h) fun _ h => h) h

theorem execFill_ran (h : execFill s = .next t) : Ran .sender s t :=
  cycle_row_ran cycle_of_and (fun _ => spec_mono (fillBody_does s) (fun _ _ h => h.1.goes.moves) fun _ h => h) h

theorem outstanding_lt_of_not_full {sn : Sender} (h : isFull sn = false) : sn.outstanding.toNat < 7 := by
  have hne : sn.outstanding ≠ 7#3 := of_decide_eq_false h
  bv_omega

/-- TXNEW is performed only where the window has room (R144). -/
theorem execTxNew_ran (h : execTxNew s = .next t) : Ran .sender s t := by
  refine cycle_row_ran (fun hc => ?_) (fun hc => ?_) h <;> simp only [Bool.and_eq_true, Bool.not_eq_true'] at hc
  · exact cycle_of_inCycle hc.1.1.1
  · obtain ⟨⟨_, hroom⟩, _⟩ := hc
    exact spec_mono (txNewBody_does s) (fun _ _ h => (h.goes (outstanding_lt_of_not_full hroom)).moves) fun _ h => h

theorem execResend_ran (h : execResend s = .next t) : Ran .sender s t :=
  cycle_row_ran cycle_of_and (fun _ => spec_mono (resendBody_does s)
    (fun _ _ h => (h.goes rfl fun hi => hi.congr rfl rfl rfl rfl rfl rfl rfl Iff.rfl).moves) fun _ h => h) h

theorem execTxOld_ran {j : BitVec 3} (h : execTxOld j s = .next t) : Ran .sender s t := by
  unfold execTxOld at h
  split at h
  next en _ =>
    exact cycle_row_ran cycle_of_and (fun _ => spec_mono (txOldBody_does en s) (fun _ _ h => h.goes.moves) fun _ h => h) h
  next => cases h

theorem execSndStart_ran (h : execSndStart s = .next t) : Ran .sender s t := by
  unfold execSndStart at h
  split at h
  next hp =>
    split at h <;> cases h
    next hc => exact .started hp fun _ => hc
  next =>
    cases h
    exact .still

theorem execRcvStart_ran (h : execRcvStart s = .next t) : Ran .receiver s t := by
  unfold execRcvStart at h
  split at h <;> cases h
  next hp => exact .started hp nofun
  next => exact .still

/-- The inversion of `exec`: the row has done one of the things of `Ran`, as the engine that performs it. -/
theorem exec_ran {i : Instr} (h : exec i s = .next t) : Ran (engineOf i) s t := by
  cases i with
  | ack n => exact encodeOp_ran (frameAck_payload_length n) h
  | data n len d => exact execData_ran h
  | eotAck n => exact encodeOp_ran (frameEotAck_payload_length n) h
  | eot n => exact encodeOp_ran (frameEot_payload_length n) h
  | ackRx f => exact wait_row_ran of_decide_eq_true (ackBody_answered f.seq s) h
  | ackDiscard f => exact wait_row_ran phase_of_and (ackDiscardBody_answered s) h
  | ackCum f => exact execAckCum_ran h
  | ackLate f => exact wait_row_ran phase_of_and (ackLateBody_answered s) h
  | ackResync f => exact wait_row_ran phase_of_and (resyncBody_answered f.seq s) h
  | sndIgnoreData f => exact wait_row_ran of_decide_eq_true (sndIgnoreBody_answered s) h
  | sndIgnoreEotAck f => exact wait_row_ran of_decide_eq_true (sndIgnoreBody_answered s) h
  | sndIgnoreEot f => exact wait_row_ran of_decide_eq_true (sndIgnoreBody_answered s) h
  | eotAcked f => exact eotWait_row_ran (eotAckedBody_does f.seq s) h
  | eotOtherAck f => exact eotWait_row_ran (eotOtherBody_does f.seq s) h
  | eotOtherData f => exact eotWait_row_ran (eotOtherBody_does f.seq s) h
  | eotOtherEot f => exact eotWait_row_ran (eotOtherBody_does f.seq s) h
  | rcvData f => exact rcv_row_ran phase_of_and (fun _ => rcvDataBody_moves s f) h
  | rcvEot f => exact rcv_row_ran phase_of_and (fun hc => rcvEotBody_moves s f (phase_of_and hc)) h
  | rcvOoo k f => exact rcv_row_ran phase_of_and (fun _ => rcvOooBody_moves s) h
  | rcvIgnoreAck f => exact rcv_row_ran phase_of_and (fun _ => rcvIgnoreBody_moves s) h
  | rcvIgnoreEotAck f => exact rcv_row_ran phase_of_and (fun _ => rcvIgnoreBody_moves s) h
  | encode e f => exact execEncode_ran h
  | decode e b => exact execDecode_ran h
  | sndStart => exact execSndStart_ran h
  | sndCycle => exact execSndCycle_ran h
  | fill => exact execFill_ran h
  | txNew => exact execTxNew_ran h
  | resend => exact execResend_ran h
  | txOld j => exact execTxOld_ran h
  | sndEvent a => exact execSndEvent_ran h
  | timeout => exact wait_row_ran of_decide_eq_true (timeoutBody_answered s) h
  | resync n => exact execResync_ran h
  | eotSend => exact execEotSend_ran h
  | eotEvent a => exact eotWait_row_ran (eotEventBody_does a s) h
  | eotTimeout => exact eotWait_row_ran (eotTimeoutBody_does s) h
  | rcvStart => exact execRcvStart_ran h
  | rcvEvent a => exact rcv_row_ran of_decide_eq_true (fun hc => rcvEventBody_moves s a (of_decide_eq_true hc)) h
  | rcvTimeout => exact rcv_row_ran of_decide_eq_true (fun _ => rcvTimeoutBody_moves s) h
  | reset e =>
    cases h
    exact .reset
end Rows

/-! ### What fetching the next operation does to the state -/

/-- What the environment's moves leave of an instance's side: the buffer and the log as they were, no new datagram in the bag,
and the send answers planned before (R71; log 5). -/
structure SideKept (x y : Side) : Prop where
  fb : y.fb = x.fb
  log : y.log = x.log
  bag : ∀ b ∈ y.inbox, b ∈ x.inbox
  answers : ∃ more, y.answers = x.answers ++ more

theorem SideKept.refl (x : Side) : SideKept x x := ⟨rfl, rfl, fun _ h => h, [], by simp⟩

/-- A bag has only gained datagrams. -/
def Gained (x y : Side) : Prop := ∃ more, y.inbox = x.inbox ++ more

theorem gained_of_eq {x y : Side} (h : y.inbox = x.inbox) : Gained x y := ⟨[], by simp [h]⟩

/-- Fetching the next operation of `s` has led to `u`: no register is written, the Source and the Sink are replaced only where
no transfer runs and RCV has not started (log 13, log 16), and a stopped engine's bag loses a datagram only by a drop. -/
structure Fetches (s u : State) : Prop where
  snd : u.snd = s.snd
  rcv : u.rcv = s.rcv
  side : ∀ e, SideKept (s.side e) (u.side e)
  src : u.src = s.src ∨ running s.snd = false ∧ ∃ chunks fl, s.script.head? = some (.load chunks fl)
  sink : u.sink = s.sink ∨ s.rcv.phase = .idle
  bag : ∀ e, stopped e s = true → Gained (s.side e) (u.side e) ∨ ∃ i, s.script.head? = some (.drop e i)

theorem fetches_setScript (s : State) (l : List Move) : Fetches s (s.setScript l) where
  snd := rfl
  rcv := rfl
  side e := by simpa using SideKept.refl (s.side e)
  src := .inl rfl
  sink := .inl rfl
  bag e _ := .inl (gained_of_eq (by simp))

theorem side_setSide_cases (s : State) (e e' : Role) (x : Side) :
    e' = e ∧ (s.setSide e x).side e' = x ∨ (s.setSide e x).side e' = s.side e' := by
  cases e <;> cases e' <;> simp

/-- A move that changes one instance's side alone. -/
theorem fetches_setSide {s : State} {l : List Move} {e : Role} {x : Side} (hk : SideKept (s.side e) x)
    (hb : stopped e s = true → Gained (s.side e) x ∨ ∃ i, s.script.head? = some (.drop e i)) :
    Fetches s ((s.setScript l).setSide e x) where
  snd := by simp
  rcv := by simp
  side e' := by
    rcases side_setSide_cases (s.setScript l) e e' x with ⟨rfl, h⟩ | h <;> rw [h]
    · exact hk
    · simpa using SideKept.refl (s.side e')
  src := .inl (by simp)
  sink := .inl (by simp)
  bag e' hs := by
    rcases side_setSide_cases (s.setScript l) e e' x with ⟨rfl, h⟩ | h
    · rw [h]
      exact hb hs
    · exact .inl (gained_of_eq (by simp [h]))

/-- What holds of the state that a fetched move hands on. -/
def Fetched.Hands (P : State → Prop) : Fetched → Prop
  | .perform _ u => P u
  | .still u => P u
  | .reject _ => True

@[simp] theorem hands_perform (P : State → Prop) (i : Instr) (u : State) : (Fetched.perform i u).Hands P ↔ P u := Iff.rfl
@[simp] theorem hands_still (P : State → Prop) (u : State) : (Fetched.still u).Hands P ↔ P u := Iff.rfl
@[simp] theorem hands_reject (P : State → Prop) (r : Refusal) : (Fetched.reject r).Hands P := trivial

/-- A stopped engine has no pending receive (R98, R227). -/
theorem stopped_eq_false_of_eventRow {e : Role} {a : Answer} {s : State} {i : Instr} (h : eventRow e a s = some i) :
    stopped e s = false := by
  cases e with
  | sender => cases hp : s.snd.phase <;> simp [eventRow, hp] at h <;> simp [stopped, hp]
  | receiver =>
    cases hp : s.rcv.phase <;> simp [eventRow, hp] at h
    simp [stopped, hp]

theorem dropAt_subset (i : Nat) (l : List Datagram) : ∀ b ∈ dropAt i l, b ∈ l :=
  fun _ h => List.mem_of_mem_eraseIdx h

theorem dupAt_eq_append (i : Nat) (l : List Datagram) : ∃ more, dupAt i l = l ++ more ∧ ∀ b ∈ more, b ∈ l := by
  unfold dupAt
  split
  next b hb => exact ⟨[b], rfl, fun _ h => List.mem_singleton.1 h ▸ List.mem_of_getElem? hb⟩
  next => exact ⟨[], by simp, nofun⟩

/-- The Channel's answer to an engine that receives: with the datagram it delivers gone from the bag, or nothing changed. -/
theorem channelAnswer_setSide {e : Role} {c : RecvChoice} {s t : State} {a : Answer}
    (h : channelAnswer e c s = some (a, t)) :
    ∃ bag : List Datagram, (∀ b ∈ bag, b ∈ (s.side e).inbox) ∧ t = s.setSide e { s.side e with inbox := bag } := by
  have hself : s = s.setSide e { s.side e with inbox := (s.side e).inbox } := by cases e <;> rfl
  cases c with
  | timeout => cases h; exact ⟨_, fun _ h => h, hself⟩
  | error => cases h; exact ⟨_, fun _ h => h, hself⟩
  | deliver i =>
    unfold channelAnswer at h
    dsimp only at h
    split at h <;> cases h
    exact ⟨_, dropAt_subset i _, rfl⟩

theorem fetchAnswer_does (e : Role) (c : RecvChoice) (s : State) (l : List Move) :
    (fetchAnswer e c (s.setScript l)).Hands (Fetches s) := by
  unfold fetchAnswer
  split
  · exact fetches_setScript s l
  next a t hc =>
    split
    · exact fetches_setScript s l
    next i hi =>
      obtain ⟨bag, hbag, rfl⟩ := channelAnswer_setSide hc
      have hrun : stopped e s = false := stopped_eq_false_of_eventRow (s := s) (by cases e <;> exact hi)
      have hkept : ∀ r, SideKept (s.side e) { s.side e with inbox := bag, rstAt := r } := fun r =>
        ⟨rfl, rfl, by simpa using hbag, [], by simp⟩
      have hfetch : ∀ r, Fetches s ((s.setScript l).setSide e { s.side e with inbox := bag, rstAt := r }) := fun r =>
        fetches_setSide (hkept r) fun hs => by simp [hrun] at hs
      split
      · exact fetches_setScript s l
      next n _ =>
        have hset : ∀ x y, (((s.setScript l).setSide e x).setSide e y) = (s.setScript l).setSide e y := by
          intro x y
          cases e <;> rfl
        simpa [hset] using hfetch (some n)
      · simpa using hfetch (s.side e).rstAt

/-- What one move, taken from the script, does to the state before an operation is performed. -/
theorem fetchMove_does {s : State} {m : Move} {rest : List Move} (hs : s.script = m :: rest) :
    (fetchMove m (s.setScript rest)).Hands (Fetches s) := by
  have hbase := fetches_setScript s rest
  cases m with
  | op r bytes =>
    cases h : decodeIn r bytes with
    | ok i => simpa [fetchMove_op_ok _ h] using hbase
    | error err => simp [fetchMove_op_error _ h]
  | host e rst start =>
    simp only [fetchMove, fetchHost]
    split
    · exact hbase
    split
    · cases e <;> exact hbase
    · exact hbase
  | run =>
    simp only [fetchMove, fetchRun]
    split <;> exact hbase
  | answer e c => exact fetchAnswer_does e c s rest
  | drop e i =>
    simp only [fetchMove, setScript_side, hands_still]
    exact fetches_setSide ⟨rfl, rfl, dropAt_subset i _, [], by simp⟩ fun _ => .inr ⟨i, by simp [hs]⟩
  | dup e i =>
    simp only [fetchMove, setScript_side, hands_still]
    obtain ⟨more, hmore, hsub⟩ := dupAt_eq_append i (s.side e).inbox
    refine fetches_setSide ⟨rfl, rfl, fun b hb => ?_, [], by simp⟩ fun _ => .inl ⟨more, hmore⟩
    rw [hmore, List.mem_append] at hb
    exact hb.elim id (hsub b)
  | plan e as =>
    simp only [fetchMove, setScript_side, hands_still]
    exact fetches_setSide ⟨rfl, rfl, fun _ h => h, as, rfl⟩ fun _ => .inl (gained_of_eq rfl)
  | armRst e n =>
    simp only [fetchMove, setScript_side, hands_still]
    exact fetches_setSide ⟨rfl, rfl, fun _ h => h, [], by simp⟩ fun _ => .inl (gained_of_eq rfl)
  | load chunks flagsLast =>
    simp only [fetchMove]
    split
    next hfree =>
      have hrun : running s.snd = false := by
        rw [sourceFree] at hfree
        cases hp : s.snd.phase <;> simp [running, hp] at hfree ⊢
      exact { hbase with src := .inr ⟨hrun, chunks, flagsLast, by simp [hs]⟩ }
    · trivial
  | newSink =>
    simp only [fetchMove]
    split
    next hfree => exact { hbase with sink := .inr (of_decide_eq_true hfree) }
    · trivial

theorem fetch_does (s : State) : (fetch s).Hands (Fetches s) := by
  cases hs : s.script with
  | nil =>
    rw [fetch, hs]
    exact fetches_setScript s s.script
  | cons m rest =>
    rw [fetch_of_script hs]
    exact fetchMove_does hs

/-- A step is a move taken from the script and what one engine has then done, which may be nothing. -/
theorem step_ran {s t : State} (h : step s = .next t) : ∃ e u, Fetches s u ∧ Ran e u t := by
  have hd := fetch_does s
  cases hf : fetch s with
  | perform i u =>
    rw [hf] at hd
    rw [step_of_perform hf] at h
    exact ⟨engineOf i, u, hd, exec_ran h⟩
  | still u =>
    rw [hf] at hd
    rw [step_of_still hf] at h
    cases h
    exact ⟨.sender, _, hd, .still⟩
  | reject r =>
    rw [step_of_reject hf] at h
    cases h

/-! ### The link invariant and the phase tables along a step -/

theorem eq_or_eq_peer (e e' : Role) : e' = e ∨ e' = peer e := by
  cases e <;> cases e' <;> simp

/-- An engine's part of the invariant speaks of its registers alone. -/
theorem engineInv_of_sameEngine {e : Role} {s t : State} (h : sameEngine e s t) (hi : engineInv e s) : engineInv e t := by
  cases e with
  | sender => rwa [engineInv_sender, h.1]
  | receiver => rwa [engineInv_receiver, h.1]

theorem Moves.linkInv {e : Role} {s t : State} (h : Moves e s t) (hl : LinkInv s) : LinkInv t := by
  rw [linkInv_iff] at hl ⊢
  intro e'
  obtain ⟨hi, hf⟩ := hl e'
  rcases eq_or_eq_peer e e' with rfl | rfl
  · exact ⟨h.inv hi, h.work.fb hf⟩
  · obtain ⟨more, hm⟩ := h.work.peerSide
    exact ⟨engineInv_of_sameEngine h.work.peerEngine hi, by rw [hm]; exact hf⟩

theorem Fetches.linkInv {s u : State} (h : Fetches s u) (hl : LinkInv s) : LinkInv u := by
  rw [linkInv_iff] at hl ⊢
  intro e
  obtain ⟨hi, hf⟩ := hl e
  refine ⟨?_, by rw [(h.side e).fb]; exact hf⟩
  cases e with
  | sender => rwa [engineInv_sender, h.snd]
  | receiver => rwa [engineInv_receiver, h.rcv]

theorem step_linkInv {s t : State} (hl : LinkInv s) (h : step s = .next t) : LinkInv t := by
  obtain ⟨e, u, hfetch, hran⟩ := step_ran h
  exact hran.moves.linkInv (hfetch.linkInv hl)

/-- Settles O58: fetching writes no register and no buffer, and what the engine has then done keeps its own part of the
invariant and does not touch the peer's. -/
theorem everyStepKeepsTheLinkInvariant : Obligations.EveryStepKeepsTheLinkInvariant :=
  fun _ _ => step_linkInv

/-- The phase of the engine that moved follows its table; the peer's registers are as they were. -/
theorem Moves.phases {e : Role} {s t : State} (h : Moves e s t) : sndMayMove s.snd t.snd ∧ rcvMayMove s.rcv t.rcv := by
  have hp := h.work.peerEngine
  cases e with
  | sender => exact ⟨h.move, .inr (.inl (congrArg Receiver.phase hp.1))⟩
  | receiver => exact ⟨.inr (.inl (congrArg Sender.phase hp.1)), h.move⟩

/-- Settles O23: fetching leaves both phases, and one engine then moves as its table says. -/
theorem phasesMoveAsTheTablesSay : Obligations.PhasesMoveAsTheTablesSay := by
  intro s t h
  obtain ⟨e, u, hfetch, hran⟩ := step_ran h
  rw [← hfetch.snd, ← hfetch.rcv]
  exact hran.moves.phases

/-! ### A stopped engine -/

/-- What an operation leaves of an engine that has stopped: its registers, or reset's; its Source or Sink, its log and its
planned answers; the peer's bag; and its own bag but for datagrams sent to it. -/
structure Rests (e : Role) (s t : State) : Prop where
  engine : sameEngine e s t ∨ atReset e t
  src : e = .sender → t.src = s.src
  sink : e = .receiver → t.sink = s.sink
  log : (t.side e).log = (s.side e).log
  answers : (t.side e).answers = (s.side e).answers
  peerBag : (t.side (peer e)).inbox = (s.side (peer e)).inbox
  bag : Gained (s.side e) (t.side e)

/-- The peer's work sends it datagrams and nothing else. -/
theorem Work.peer_rests {e : Role} {s t : State} (h : Work e s t) : Rests (peer e) s t := by
  obtain ⟨more, hm⟩ := h.peerSide
  have hp := h.peerEngine
  have hpp : peer (peer e) = e := by cases e <;> rfl
  refine ⟨.inl hp, fun he => ?_, fun he => ?_, by rw [hm], by rw [hm], by rw [hpp, h.inbox], more, by rw [hm]⟩
  · rw [he] at hp
    exact hp.2
  · rw [he] at hp
    exact hp.2

theorem not_active_of_stopped {e : Role} {s : State} (h : stopped e s = true) : ¬ active e s := by
  cases e with
  | sender => cases hp : s.snd.phase <;> simp [stopped, active, running, hp] at h ⊢
  | receiver => cases hp : s.rcv.phase <;> simp [stopped, active, hp] at h ⊢

theorem not_inIdle_of_stopped {e : Role} {s : State} (h : stopped e s = true) : ¬ inIdle e s := by
  cases e with
  | sender => cases hp : s.snd.phase <;> simp [stopped, inIdle, hp] at h ⊢
  | receiver => cases hp : s.rcv.phase <;> simp [stopped, inIdle, hp] at h ⊢

/-- A stopped engine's own rows do nothing but write its buffer or be an rst (R227, R253). -/
theorem Ran.rests {e : Role} {s t : State} (h : Ran e s t) (hs : stopped e s = true) : Rests e s t := by
  cases h with
  | worked ha _ => exact absurd ha (not_active_of_stopped hs)
  | started hi _ => exact absurd hi (not_inIdle_of_stopped hs)
  | encoded f hp =>
    exact ⟨.inl (by cases e <;> simp), by simp, by simp, by simp, by simp, by simp, gained_of_eq (by simp)⟩
  | still =>
    exact ⟨.inl (by cases e <;> simp), fun _ => rfl, fun _ => rfl, rfl, rfl, rfl, gained_of_eq rfl⟩
  | reset =>
    refine ⟨.inr (by cases e <;> rfl), by simp, by simp, ?_, ?_, ?_, gained_of_eq ?_⟩ <;> cases e <;> rfl

/-- The engine of `e` is in the same phase after fetching. -/
theorem Fetches.stopped_eq {s u : State} (h : Fetches s u) (e : Role) : stopped e u = stopped e s := by
  cases e <;> simp [stopped, h.snd, h.rcv]

theorem rests_of_ran {e e' : Role} {s t : State} (h : Ran e s t) (hs : stopped e' s = true) : Rests e' s t := by
  rcases eq_or_eq_peer e e' with rfl | rfl
  · exact h.rests hs
  · exact h.moves.work.peer_rests

/-- What a step leaves of a stopped engine's side and of the peer's bag, the environment's moves included. -/
theorem side_of_stopped {e : Role} {s u t : State} (hf : Fetches s u) (hr : Rests e u t) (hs : stopped e s = true) :
    (t.side e).log = (s.side e).log ∧ (∀ b ∈ (t.side (peer e)).inbox, b ∈ (s.side (peer e)).inbox) ∧
      (Gained (s.side e) (t.side e) ∨ ∃ i, s.script.head? = some (.drop e i)) ∧
      ∃ more, (t.side e).answers = (s.side e).answers ++ more := by
  refine ⟨hr.log.trans (hf.side e).log, fun b hb => (hf.side (peer e)).bag b (hr.peerBag ▸ hb), ?_, ?_⟩
  · refine (hf.bag e hs).imp_left fun ⟨more, hm⟩ => ?_
    obtain ⟨more', hm'⟩ := hr.bag
    exact ⟨more ++ more', by rw [hm', hm, List.append_assoc]⟩
  · obtain ⟨more, hm⟩ := (hf.side e).answers
    exact ⟨more, hr.answers.trans hm⟩

/-- Settles O21: `Fetches` says what the environment's move leaves, `Rests` what the operation after it leaves. -/
theorem stoppedEnginesStayStopped : Obligations.StoppedEnginesStayStopped := by
  intro s t h
  obtain ⟨e, u, hfetch, hran⟩ := step_ran h
  refine ⟨fun hs => ?_, fun hs => ?_⟩
  · have hr : Rests .sender u t := rests_of_ran hran ((hfetch.stopped_eq _).trans hs)
    obtain ⟨hlog, hpeer, hbag, hans⟩ := side_of_stopped hfetch hr hs
    refine ⟨hr.engine.imp (fun h => h.1.trans hfetch.snd) id, hlog, ?_, hpeer, hbag, hans⟩
    rw [hr.src rfl]
    exact hfetch.src.imp_right And.right
  · have hr : Rests .receiver u t := rests_of_ran hran ((hfetch.stopped_eq _).trans hs)
    obtain ⟨hlog, hpeer, hbag, hans⟩ := side_of_stopped hfetch hr hs
    refine ⟨hr.engine.imp (fun h => h.1.trans hfetch.rcv) id, hlog, ?_, hpeer, hbag, hans⟩
    rw [hr.sink rfl]
    refine hfetch.sink.resolve_right fun hi => ?_
    simp [stopped, hi] at hs

/-! ### The protocol invariant along a step of the block's own -/

/-- The rows that the moves `run`, `answer` and `host` perform (log 12). -/
inductive OwnRow : Instr → Prop
  | sndStart : OwnRow .sndStart
  | sndCycle : OwnRow .sndCycle
  | sndEvent (a : Answer) : OwnRow (.sndEvent a)
  | eotEvent (a : Answer) : OwnRow (.eotEvent a)
  | rcvStart : OwnRow .rcvStart
  | rcvEvent (a : Answer) : OwnRow (.rcvEvent a)
  | reset (e : Role) : OwnRow (.reset e)

theorem eventRow_own {e : Role} {a : Answer} {s : State} {i : Instr} (h : eventRow e a s = some i) : OwnRow i := by
  cases e with
  | sender =>
    cases hp : s.snd.phase <;> simp [eventRow, hp] at h <;> subst h
    · exact .sndEvent a
    · exact .eotEvent a
  | receiver =>
    cases hp : s.rcv.phase <;> simp [eventRow, hp] at h
    subst h
    exact .rcvEvent a

theorem fetchAnswer_own {e : Role} {c : RecvChoice} {s u : State} {i : Instr} (h : fetchAnswer e c s = .perform i u) :
    OwnRow i := by
  unfold fetchAnswer at h
  split at h
  · cases h
  · split at h
    · cases h
    next i' hi =>
      split at h <;> cases h
      · exact .reset e
      · exact eventRow_own hi
      · exact eventRow_own hi

theorem fetchHost_own {e : Role} {rst start : Bool} {s u : State} {i : Instr}
    (h : fetchHost e rst start s = .perform i u) : OwnRow i := by
  unfold fetchHost at h
  split at h
  · cases h
    exact .reset e
  split at h
  · cases e <;> cases h
    · exact .sndStart
    · exact .rcvStart
  · cases h

/-- Only the operation port performs other rows. -/
theorem fetchMove_own {m : Move} {s u : State} {i : Instr} (hm : ∀ r bytes, m ≠ .op r bytes)
    (h : fetchMove m s = .perform i u) : OwnRow i := by
  cases m with
  | op r bytes => exact absurd rfl (hm r bytes)
  | host e rst start => exact fetchHost_own h
  | run =>
    simp only [fetchMove, fetchRun] at h
    split at h <;> cases h
    exact .sndCycle
  | answer e c => exact fetchAnswer_own h
  | drop e i => cases h
  | dup e i => cases h
  | plan e as => cases h
  | armRst e n => cases h
  | load chunks flagsLast =>
    simp only [fetchMove] at h
    split at h <;> cases h
  | newSink =>
    simp only [fetchMove] at h
    split at h <;> cases h

theorem fetch_own {s u : State} {i : Instr} (hq : portQuiet s) (h : fetch s = .perform i u) : OwnRow i := by
  cases hs : s.script with
  | nil => simp [fetch, hs] at h
  | cons m rest =>
    rw [fetch_of_script hs] at h
    exact fetchMove_own (fun r bytes hm => hq r bytes (by simp [hs, hm])) h

theorem Fetches.orderly {s u : State} (h : Fetches s u) (ho : Orderly s) : Orderly u := by
  refine ⟨?_, h.snd ▸ ho.flags⟩
  rcases h.src with hsrc | ⟨hrun, -⟩
  · exact (ho.congr h.snd hsrc).cursor
  · intro hr
    rw [h.snd, hrun] at hr
    cases hr

/-- RCV's work is none of the cursor's or the flags' concern. -/
theorem Ran.receiver_orderly {s t : State} (h : Ran .receiver s t) (ho : Orderly s) : Orderly t := by
  obtain ⟨hsnd, hsrc⟩ := h.moves.work.peerEngine
  exact ho.congr hsnd hsrc

/-- SND.START in IDLE finds the registers of reset and the cursor at chunk 0 (R40, R140, R282(d)). -/
theorem execSndStart_orderly {s t : State} (h : execSndStart s = .next t) (ho : Orderly s) : Orderly t := by
  unfold execSndStart at h
  split at h
  next hp =>
    split at h <;> cases h
    next hc =>
      have hsnd := ho.flags.atIdle hp
      have hcur : cursorAtSent (s.setSndPhase .cycle) := by
        rw [cursorAtSent, setSndPhase_src, setSndPhase_snd, hc, hsnd]
        rfl
      refine orderly_of_cycle rfl hcur ?_ ?_ ?_ <;> simp [hsnd, senderReset]
  next =>
    cases h
    exact ho

/-- A row whose operation keeps the cursor's and the flags' part in its phase. -/
theorem row_orderly {s t : State} {r : Res Unit} {c : Bool} {m : String} {P : State → Prop}
    (hr : c = true → r.Spec (fun _ t => P t) (Stops .sender s)) (hP : c = true → ∀ t, P t → Orderly t)
    (h : onlyWhen c m r.outcome = .next t) : Orderly t := by
  obtain ⟨hc, ho⟩ := onlyWhen_eq_next h
  exact spec_next (spec_mono (hr hc) (fun _ t ht => hP hc t ht) fun _ hs => hs.orderly) ho

/-- Every row of the block's own moves keeps the cursor's and the flags' part. -/
theorem exec_orderly {i : Instr} {s t : State} (hi : OwnRow i) (h : exec i s = .next t) (ho : Orderly s) : Orderly t := by
  cases hi with
  | sndStart => exact execSndStart_orderly h ho
  | sndCycle =>
    exact row_orderly (fun hc => sndCycleBody_does s (of_decide_eq_true hc)) (fun _ _ ht => ht.2 ho) h
  | sndEvent a =>
    exact row_orderly (fun hc => sndEventBody_does a s (of_decide_eq_true hc)) (fun _ _ ht => ht.2 ho) h
  | eotEvent a =>
    exact row_orderly (fun _ => eotEventBody_does a s) (fun hc _ ht => ht.orderly (of_decide_eq_true hc) ho) h
  | rcvStart => exact (exec_ran h).receiver_orderly ho
  | rcvEvent a => exact (exec_ran h).receiver_orderly ho
  | reset e =>
    cases e with
    | sender =>
      cases h
      exact orderly_of_reset rfl
    | receiver => exact (exec_ran h).receiver_orderly ho

theorem step_orderly {s t : State} (ho : Orderly s) (hq : portQuiet s) (h : step s = .next t) : Orderly t := by
  have hd := fetch_does s
  cases hf : fetch s with
  | perform i u =>
    rw [hf] at hd
    rw [step_of_perform hf] at h
    exact exec_orderly (fetch_own hq hf) h (hd.orderly ho)
  | still u =>
    rw [hf] at hd
    rw [step_of_still hf] at h
    cases h
    exact hd.orderly ho
  | reject r =>
    rw [step_of_reject hf] at h
    cases h

/-- Settles O60: the link invariant by `step_linkInv`; the cursor's and the flags' part by `step_orderly`, whose cases are the
rows of the block's own moves. -/
theorem everyOwnStepKeepsTheProtocolInvariant : Obligations.EveryOwnStepKeepsTheProtocolInvariant := by
  intro s t hs hq h
  obtain ⟨hlink, horder⟩ := (protocolInv_iff s).1 hs
  exact (protocolInv_iff t).2 ⟨step_linkInv hlink h, step_orderly horder hq h⟩

end Sys2Proof.Machine

/-! PROOFS of the memory family (20_memory.md): the frame buffer R60, the moves of the environment R66, R71 and R77, the answers
of R70, and what the two engines can see of each other (R64, R74). The last turns on one relation, `Res.Alike`: an operation run
on two states that look the same to its engine comes out the same, and all it has put in the peer's bag is whole frames. -/

namespace Sys2Proof.Machine

/-! ### The frame buffer -/

theorem memWrite_outside {m : Memory} {a : Nat} {v : List Byte} (h : Config.frameBytes < a + v.length) :
    memWrite m a v = .error .fbRange :=
  if_neg (Nat.not_le.2 h)

theorem memRead_outside {m : Memory} {a n : Nat} (h : Config.frameBytes < a + n) : memRead m a n = .error .fbRange :=
  if_neg (Nat.not_le.2 h)

theorem memWrite_inside {m : Memory} {a : Nat} {v : List Byte} (h : a + v.length ≤ Config.frameBytes) :
    memWrite m a v = .ok (memSetAll m a v) :=
  if_pos h

/-- Bytes written inside the buffer are what a read of as many bytes at the same offset answers (R60). -/
theorem memRead_memSetAll {m : Memory} {a : Nat} {v : List Byte} (h : a + v.length ≤ Config.frameBytes) :
    memRead (memSetAll m a v) a v.length = .ok v := by
  rw [memRead, if_pos h]
  congr 1
  refine List.ext_getElem (by simp) fun i _ hi => ?_
  have hin : a ≤ a + i ∧ a + i < a + v.length := ⟨Nat.le_add_right a i, Nat.add_lt_add_left hi a⟩
  rw [List.getElem_map, List.getElem_range, memGet_memSetAll, if_pos hin, Nat.add_sub_cancel_left,
    List.getD_eq_getElem _ _ hi]

/-- A write leaves every offset before and after its bytes alone. -/
theorem memGet_memSetAll_outside {m : Memory} {a b : Nat} {v : List Byte} (h : b < a ∨ a + v.length ≤ b) :
    memGet (memSetAll m a v) b = memGet m b := by
  rw [memGet_memSetAll, if_neg (by omega)]

/-- Settles O8: outside the 33 bytes both accesses fault; inside, the written bytes are read back by `memRead_memSetAll`. -/
theorem frameBufferReadsWhatWasWritten : Obligations.FrameBufferReadsWhatWasWritten := fun m a v =>
  ⟨memWrite_outside, fun _ => memRead_outside, fun h =>
    ⟨memSetAll m a v, memWrite_inside h, memRead_memSetAll h, fun _ => memGet_memSetAll_outside,
      fun hwf => memSetAll_wf v m a hwf h⟩⟩

/-! ### The moves of the environment -/

theorem step_of_still_move {s t : State} {m : Move} {rest : List Move} (hs : s.script = m :: rest)
    (h : fetchMove m (s.setScript rest) = .still t) : step s = .next t :=
  step_of_still ((fetch_of_script hs).trans h)

theorem step_of_perform_move {s t : State} {m : Move} {rest : List Move} {i : Instr} (hs : s.script = m :: rest)
    (h : fetchMove m (s.setScript rest) = .perform i t) : step s = exec i t :=
  step_of_perform ((fetch_of_script hs).trans h)

theorem step_of_reject_move {s : State} {m : Move} {rest : List Move} {r : Refusal} (hs : s.script = m :: rest)
    (h : fetchMove m (s.setScript rest) = .reject r) : step s = .refused r :=
  step_of_reject ((fetch_of_script hs).trans h)

section Bags
variable (e : Role) (i : Nat) (s : State)

theorem fetchMove_drop :
    fetchMove (.drop e i) s = .still (s.setSide e { s.side e with inbox := (s.side e).inbox.eraseIdx i }) := rfl

theorem fetchMove_dup_present {b : Datagram} (h : (s.side e).inbox[i]? = some b) :
    fetchMove (.dup e i) s = .still (s.setSide e { s.side e with inbox := (s.side e).inbox ++ [b] }) := by
  simp only [fetchMove, dupAt, h]

theorem fetchMove_dup_absent (h : (s.side e).inbox[i]? = none) : fetchMove (.dup e i) s = .still s := by
  have hself : s.setSide e (s.side e) = s := by cases e <;> rfl
  simp only [fetchMove, dupAt, h, hself]
end Bags

/-- A Source may be put in place exactly while no transfer runs (R282, RV9; log 13). -/
theorem sourceFree_eq (s : State) : sourceFree s = !running s.snd := by
  cases hp : s.snd.phase <;> simp [sourceFree, running, hp]

section Platform
variable (chunks : List (List Byte)) (fl : Bool) {s : State}

theorem fetchMove_load_free (h : running s.snd = false) :
    fetchMove (.load chunks fl) s = .still (s.setSrc { chunks := chunks, cursor := 0, flagsLast := fl }) := by
  simp [fetchMove, sourceFree_eq, h]

theorem fetchMove_load_running (h : running s.snd = true) : fetchMove (.load chunks fl) s = .reject .sourceChanged := by
  simp [fetchMove, sourceFree_eq, h]

theorem fetchMove_newSink_idle (h : s.rcv.phase = .idle) : fetchMove .newSink s = .still (s.setSink []) := by
  simp [fetchMove, sinkFree, h]

theorem fetchMove_newSink_started (h : s.rcv.phase ≠ .idle) : fetchMove .newSink s = .reject .sinkChanged := by
  simp [fetchMove, sinkFree, h]
end Platform

theorem step_of_empty {s : State} (h : s.script = []) : step s = .next s :=
  step_of_still (by rw [fetch, h])

/-- Settles O12: each move by what `fetchMove` says of it, once it is taken from the script. -/
theorem environmentMovesTouchOnlyTheirPart : Obligations.EnvironmentMovesTouchOnlyTheirPart := by
  intro s rest e
  have hside : (s.setScript rest).side e = s.side e := setScript_side s rest e
  refine ⟨fun i hs => ?_, fun i b hs hb => ?_, fun i hs hb => ?_, fun as hs => ?_, fun n hs => ?_, fun chunks fl hs hr => ?_,
    fun chunks fl hs hr => ?_, fun hs hp => ?_, fun hs hp => ?_, step_of_empty⟩
  · rw [step_of_still_move hs (fetchMove_drop e i _), hside]
  · rw [step_of_still_move hs (fetchMove_dup_present e i _ (hside ▸ hb)), hside]
  · exact step_of_still_move hs (fetchMove_dup_absent e i _ (hside ▸ hb))
  · rw [step_of_still_move hs rfl, hside]
  · rw [step_of_still_move hs rfl, hside]
  · exact step_of_still_move hs (fetchMove_load_free chunks fl hr)
  · exact step_of_reject_move hs (fetchMove_load_running chunks fl hr)
  · exact step_of_still_move hs (fetchMove_newSink_idle hp)
  · exact step_of_reject_move hs (fetchMove_newSink_started hp)

/-! ### The Channel's answers -/

/-- What the Channel can answer to a pending receive, and what is then left in the bag (R70, R71). -/
def answersWith (c : RecvChoice) (bag : List Datagram) (a : Answer) (left : List Datagram) : Prop :=
  (∃ i b, c = .deliver i ∧ bag[i]? = some b ∧ a = .buffer b ∧ left = bag.eraseIdx i) ∨
    (c = .timeout ∧ a = .timeout ∧ left = bag) ∨ (c = .error ∧ a = .error ∧ left = bag)

theorem channelAnswer_of_answersWith {e : Role} {c : RecvChoice} {s : State} {a : Answer} {left : List Datagram}
    (h : answersWith c (s.side e).inbox a left) :
    channelAnswer e c s = some (a, s.setSide e { s.side e with inbox := left }) := by
  have hself : s.setSide e { s.side e with inbox := (s.side e).inbox } = s := by cases e <;> rfl
  rcases h with ⟨i, b, rfl, hb, rfl, rfl⟩ | ⟨rfl, rfl, rfl⟩ | ⟨rfl, rfl, rfl⟩
  · simp only [channelAnswer, hb, dropAt]
  · rw [hself, channelAnswer]
  · rw [hself, channelAnswer]

/-- An answer to an engine that waits for one, with no rst due, is performed as the event of its phase. -/
theorem fetchAnswer_of_row {e : Role} {c : RecvChoice} {s t : State} {a : Answer} {i : Instr}
    (hc : channelAnswer e c s = some (a, t)) (hi : eventRow e a s = some i) (hr : noRst e s) :
    fetchAnswer e c s = .perform i t := by
  rw [noRst] at hr
  simp only [fetchAnswer, hc, hi, hr]

/-- An engine that waits for no answer takes none, whether the Channel has one or not (R98). -/
theorem fetchAnswer_of_noRow {e : Role} {s : State} (c : RecvChoice) (h : ∀ a, eventRow e a s = none) :
    fetchAnswer e c s = .still s := by
  cases hc : channelAnswer e c s with
  | none => simp only [fetchAnswer, hc]
  | some p => simp only [fetchAnswer, hc, h]

theorem eventRow_sender_wait {s : State} (a : Answer) (h : s.snd.phase = .wait) :
    eventRow .sender a s = some (.sndEvent a) := by simp only [eventRow, h]

theorem eventRow_sender_eotWait {s : State} (a : Answer) (h : s.snd.phase = .eotWait) :
    eventRow .sender a s = some (.eotEvent a) := by simp only [eventRow, h]

theorem eventRow_receiver_wait {s : State} (a : Answer) (h : s.rcv.phase = .wait) :
    eventRow .receiver a s = some (.rcvEvent a) := by simp only [eventRow, h]

theorem eventRow_sender_other {s : State} (a : Answer) (hw : s.snd.phase ≠ .wait) (he : s.snd.phase ≠ .eotWait) :
    eventRow .sender a s = none := by
  cases hp : s.snd.phase <;> simp [eventRow, hp] at hw he ⊢

theorem eventRow_receiver_other {s : State} (a : Answer) (hw : s.rcv.phase ≠ .wait) : eventRow .receiver a s = none := by
  cases hp : s.rcv.phase <;> simp [eventRow, hp] at hw ⊢

/-- The step that answers a pending receive performs the event of the phase, on the state whose bag has lost the datagram. -/
theorem step_of_answer {s : State} {rest : List Move} {e : Role} {c : RecvChoice} {a : Answer} {left : List Datagram}
    {i : Instr} (hs : s.script = .answer e c :: rest) (hr : noRst e s) (ha : answersWith c (s.side e).inbox a left)
    (hi : eventRow e a (s.setScript rest) = some i) :
    step s = exec i ((s.setScript rest).setSide e { s.side e with inbox := left }) := by
  have hside : (s.setScript rest).side e = s.side e := setScript_side s rest e
  have hr' : noRst e (s.setScript rest) := by rwa [noRst, hside]
  have hc := channelAnswer_of_answersWith (s := s.setScript rest) (hside ▸ ha)
  rw [step_of_perform_move hs (fetchAnswer_of_row hc hi hr'), hside]

/-- Settles O10: the row is `eventRow`'s, phase by phase; where it gives none the answer is not taken. -/
theorem answerStartsTheEventOfThePhase : Obligations.AnswerStartsTheEventOfThePhase := by
  refine ⟨fun s rest e c a left hs hr ha => ⟨?_, ?_, ?_⟩, fun s rest e c hs hp => ?_⟩
  · rintro rfl hp
    exact step_of_answer hs hr ha (eventRow_sender_wait a hp)
  · rintro rfl hp
    exact step_of_answer hs hr ha (eventRow_sender_eotWait a hp)
  · rintro rfl hp
    exact step_of_answer hs hr ha (eventRow_receiver_wait a hp)
  · refine step_of_still_move hs (fetchAnswer_of_noRow c fun a => ?_)
    rcases hp with ⟨rfl, hw, he⟩ | ⟨rfl, hw⟩
    · exact eventRow_sender_other a hw he
    · exact eventRow_receiver_other a hw

/-! ### What an engine leaves of its peer -/

/-- Settles O54: whatever a row has done, it is work of its engine, which leaves the peer all but its bag. -/
theorem enginesShareNoState : Obligations.EnginesShareNoState := by
  intro i s t h
  have hw : Work (engineOf i) s t := (exec_ran h).moves.work
  constructor <;> intro he <;> rw [he] at hw
  · exact ⟨hw.peerEngine.1, hw.peerEngine.2, hw.peerSide⟩
  · exact ⟨hw.peerEngine.1, hw.peerEngine.2, hw.peerSide⟩

/-! ### What an engine puts in its peer's bag -/

/-- The kinds of the frames that an engine sends (R97). -/
def sendsKind (e : Role) (k : Kind) : Prop :=
  match e with
  | .sender => k = .data ∨ k = .eot
  | .receiver => k = .ack ∨ k = .eotAck

/-- A datagram is the 33 bytes of a valid frame that this engine sends (R64, R97). -/
def wholeFrame (e : Role) (b : Datagram) : Prop :=
  ∃ f, frameWf f = true ∧ sendsKind e f.kind ∧ b = encodeFrame f

/-- All that has come into the peer's bag is whole frames of this engine. -/
def Sends (e : Role) (s t : State) : Prop :=
  ∃ more, (t.side (peer e)).inbox = (s.side (peer e)).inbox ++ more ∧ ∀ b ∈ more, wholeFrame e b

theorem sends_of_eq {e : Role} {s t : State} (h : (t.side (peer e)).inbox = (s.side (peer e)).inbox) : Sends e s t :=
  ⟨[], by simp [h], nofun⟩

theorem Sends.trans {e : Role} {s t u : State} (h : Sends e s t) (h' : Sends e t u) : Sends e s u := by
  obtain ⟨more, hm, hw⟩ := h
  obtain ⟨more', hm', hw'⟩ := h'
  exact ⟨more ++ more', by rw [hm', hm, List.append_assoc], fun b hb => (List.mem_append.1 hb).elim (hw b) (hw' b)⟩

theorem sends_setSide (e : Role) (s : State) (x : Side) : Sends e s (s.setSide e x) := sends_of_eq (by simp)

theorem sends_deposit {e : Role} {b : Datagram} (s : State) (hb : wholeFrame e b) : Sends e s (deposit e b s) :=
  ⟨[b], by simp [deposit], fun _ h => List.mem_singleton.1 h ▸ hb⟩

theorem sends_takeFault (e : Role) (c : FaultCode) (s : State) : Sends e s (takeFault e c s) := sends_of_eq (by simp)

theorem sends_resetEngine (e : Role) (s : State) : Sends e s (resetEngine e s) :=
  sends_of_eq (by cases e <;> rfl)

theorem frameAck_wf (n : Seq) : frameWf (frameAck n) = true := (frameWf_iff _).2 ⟨by simp [frameAck], by simp⟩
theorem frameEotAck_wf (n : Seq) : frameWf (frameEotAck n) = true := (frameWf_iff _).2 ⟨by simp [frameEotAck], by simp⟩
theorem frameEot_wf (n : Seq) : frameWf (frameEot n) = true := (frameWf_iff _).2 ⟨by simp [frameEot], by simp⟩

/-- A chunk of at most 30 bytes makes a valid Data frame (R123, R144, R146). -/
theorem chunkData_wf (n : Seq) {d : List Byte} (h : ¬ Config.chunkBytes < d.length) :
    frameWf (frameData n (BitVec.ofNat 5 d.length) d) = true := by
  have hd : d.length ≤ 30 := Nat.le_of_not_lt h
  refine (frameWf_iff _).2 ⟨?_, frameData_payload_length _ _ _ hd⟩
  simp only [frameData, BitVec.toNat_ofNat]
  omega

/-! ### One operation on two states that look the same to its engine -/

/-- Two states look the same to the instance of this role. -/
def sameFor (e : Role) (s s' : State) : Prop :=
  match e with
  | .sender => sameForSender s s'
  | .receiver => sameForReceiver s s'

section Same
variable {e : Role} {s s' : State}

theorem sameFor.side (h : sameFor e s s') : s'.side e = s.side e := by
  cases e with
  | sender => obtain ⟨_, hside, _⟩ := h; exact hside.symm
  | receiver => obtain ⟨_, hside, _⟩ := h; exact hside.symm

theorem sameFor.snd (h : sameFor .sender s s') : s'.snd = s.snd := by obtain ⟨hsnd, _⟩ := h; exact hsnd.symm
theorem sameFor.src (h : sameFor .sender s s') : s'.src = s.src := by obtain ⟨_, _, hsrc, _⟩ := h; exact hsrc.symm
theorem sameFor.adj (h : sameFor .sender s s') : s'.adj = s.adj := by obtain ⟨_, _, _, hadj⟩ := h; exact hadj.symm
theorem sameFor.rcv (h : sameFor .receiver s s') : s'.rcv = s.rcv := by obtain ⟨hrcv, _⟩ := h; exact hrcv.symm
theorem sameFor.sink (h : sameFor .receiver s s') : s'.sink = s.sink := by obtain ⟨_, _, hsink⟩ := h; exact hsink.symm

theorem sameFor.setSide (h : sameFor e s s') (x : Side) : sameFor e (s.setSide e x) (s'.setSide e x) := by
  cases e with
  | sender => obtain ⟨hsnd, _, hrest⟩ := h; exact ⟨hsnd, rfl, hrest⟩
  | receiver => obtain ⟨hrcv, _, hsink⟩ := h; exact ⟨hrcv, rfl, hsink⟩

/-- The peer's side is out of sight. -/
theorem sameFor.setPeerSide (h : sameFor e s s') (x x' : Side) :
    sameFor e (s.setSide (peer e) x) (s'.setSide (peer e) x') := by
  cases e <;> exact h

theorem sameFor.setSnd (h : sameFor .sender s s') (x : Sender) : sameFor .sender (s.setSnd x) (s'.setSnd x) := ⟨rfl, h.2⟩

theorem sameFor.setSrc (h : sameFor .sender s s') (x : Source) : sameFor .sender (s.setSrc x) (s'.setSrc x) := by
  obtain ⟨hsnd, hside, _, hadj⟩ := h
  exact ⟨hsnd, hside, rfl, hadj⟩

theorem sameFor.setRcv (h : sameFor .receiver s s') (x : Receiver) : sameFor .receiver (s.setRcv x) (s'.setRcv x) :=
  ⟨rfl, h.2⟩

theorem sameFor.setSink (h : sameFor .receiver s s') (x : List Byte) : sameFor .receiver (s.setSink x) (s'.setSink x) := by
  obtain ⟨hrcv, hside, _⟩ := h
  exact ⟨hrcv, hside, rfl⟩

theorem sameFor.setSndPhase (h : sameFor .sender s s') (p : SndPhase) :
    sameFor .sender (s.setSndPhase p) (s'.setSndPhase p) := by
  rw [State.setSndPhase, State.setSndPhase, h.snd]
  exact h.setSnd _

theorem sameFor.setRcvPhase (h : sameFor .receiver s s') (p : RcvPhase) :
    sameFor .receiver (s.setRcvPhase p) (s'.setRcvPhase p) := by
  rw [State.setRcvPhase, State.setRcvPhase, h.rcv]
  exact h.setRcv _

theorem sameFor.takeFault (h : sameFor e s s') (c : FaultCode) : sameFor e (takeFault e c s) (takeFault e c s') := by
  cases e with
  | sender => rw [Machine.takeFault, Machine.takeFault, h.snd]; exact h.setSnd _
  | receiver => rw [Machine.takeFault, Machine.takeFault, h.rcv]; exact h.setRcv _

theorem sameFor.resetEngine (h : sameFor e s s') : sameFor e (resetEngine e s) (resetEngine e s') := by
  cases e with
  | sender =>
    rw [Machine.resetEngine, Machine.resetEngine, ← side_sender s, ← side_sender s', h.side]
    exact (h.setSnd senderReset).setSide _
  | receiver =>
    rw [Machine.resetEngine, Machine.resetEngine, ← side_receiver s, ← side_receiver s', h.side]
    exact (h.setRcv receiverReset).setSide _

theorem sameFor.deposit (h : sameFor e s s') (b : Datagram) : sameFor e (deposit e b s) (deposit e b s') :=
  h.setPeerSide _ _

theorem sameFor.encoded (h : sameFor e s s') (f : Frame) : sameFor e (encoded e f s) (encoded e f s') := by
  rw [Machine.encoded, Machine.encoded, h.side]
  exact h.setSide _

theorem sameFor.inWait (h : sameFor .sender s s') : inWait s' = inWait s := by rw [Machine.inWait, Machine.inWait, h.snd]
theorem sameFor.inEotWait (h : sameFor .sender s s') : inEotWait s' = inEotWait s := by
  rw [Machine.inEotWait, Machine.inEotWait, h.snd]
theorem sameFor.rcvWaiting (h : sameFor .receiver s s') : rcvWaiting s' = rcvWaiting s := by
  rw [Machine.rcvWaiting, Machine.rcvWaiting, h.rcv]
theorem sameFor.inOrder (h : sameFor .receiver s s') (f : Body) : inOrder f s' = inOrder f s := by
  rw [Machine.inOrder, Machine.inOrder, h.rcv]
theorem sameFor.receiving (h : sameFor e s s') : receiving e s' = receiving e s := by
  cases e with
  | sender => rw [Machine.receiving, Machine.receiving, h.snd]
  | receiver => rw [Machine.receiving, Machine.receiving, h.rcv]
end Same

/-- An operation of an engine, run from `s` and from another state: both go on with the same value or both end early, in states
that look the same to the engine, and all that the run from `s` has put in the peer's bag is whole frames. -/
def Res.Alike {α : Type} (e : Role) (s : State) (r r' : Res α) : Prop :=
  match r, r' with
  | .ok a t, .ok a' t' => a = a' ∧ sameFor e t t' ∧ Sends e s t
  | .stop t, .stop t' => sameFor e t t' ∧ Sends e s t
  | _, _ => False

section Pairs
variable {α β : Type} {e : Role} {s s' t t' : State}

theorem alike_ok (a : α) (h : sameFor e t t') (hs : Sends e s t) : (Res.ok a t).Alike e s (.ok a t') := ⟨rfl, h, hs⟩

theorem alike_stop (h : sameFor e t t') (hs : Sends e s t) : (Res.stop t : Res α).Alike e s (.stop t') := ⟨h, hs⟩

theorem alike_raise (h : sameFor e s s') (c : FaultCode) : (raise e c s : Res α).Alike e s (raise e c s') :=
  alike_stop (h.takeFault c) (sends_takeFault e c s)

/-- An operation that does nothing. -/
theorem alike_same (a : α) (h : sameFor e s s') : (Res.ok a s).Alike e s (.ok a s') := alike_ok a h (sends_of_eq rfl)

theorem alike_setSide (a : α) (h : sameFor e s s') (x : Side) :
    (Res.ok a (s.setSide e x)).Alike e s (.ok a (s'.setSide e x)) :=
  alike_ok a (h.setSide x) (sends_setSide e s x)

theorem alike_setSnd (a : α) (h : sameFor .sender s s') (x : Sender) :
    (Res.ok a (s.setSnd x)).Alike .sender s (.ok a (s'.setSnd x)) :=
  alike_ok a (h.setSnd x) (sends_of_eq rfl)

theorem alike_setSrc (a : α) (h : sameFor .sender s s') (x : Source) :
    (Res.ok a (s.setSrc x)).Alike .sender s (.ok a (s'.setSrc x)) :=
  alike_ok a (h.setSrc x) (sends_of_eq rfl)

theorem alike_setSndPhase (a : α) (h : sameFor .sender s s') (p : SndPhase) :
    (Res.ok a (s.setSndPhase p)).Alike .sender s (.ok a (s'.setSndPhase p)) :=
  alike_ok a (h.setSndPhase p) (sends_of_eq rfl)

theorem alike_setRcv (a : α) (h : sameFor .receiver s s') (x : Receiver) :
    (Res.ok a (s.setRcv x)).Alike .receiver s (.ok a (s'.setRcv x)) :=
  alike_ok a (h.setRcv x) (sends_of_eq rfl)

theorem alike_mono {r r' : Res α} (hs : Sends e s t) (h : r.Alike e t r') : r.Alike e s r' := by
  cases r with
  | ok a u =>
    cases r' with
    | ok a' u' =>
      obtain ⟨ha, hu, hsent⟩ := h
      exact ⟨ha, hu, hs.trans hsent⟩
    | stop u' => exact h
    | halt f => exact h
  | stop u =>
    cases r' with
    | ok a' u' => exact h
    | stop u' =>
      obtain ⟨hu, hsent⟩ := h
      exact ⟨hu, hs.trans hsent⟩
    | halt f => exact h
  | halt f => exact h

theorem alike_bind {r r' : Res α} {k : α → State → Res β} (h : r.Alike e s r')
    (hk : ∀ a t t', sameFor e t t' → (k a t).Alike e t (k a t')) : (r.bind k).Alike e s (r'.bind k) := by
  cases r with
  | ok a t =>
    cases r' with
    | ok a' t' =>
      obtain ⟨rfl, ht, hs⟩ := h
      exact alike_mono hs (hk a t t' ht)
    | stop t' => exact h.elim
    | halt f => exact h.elim
  | stop t =>
    cases r' with
    | ok a' t' => exact h.elim
    | stop t' => exact h
    | halt f => exact h.elim
  | halt f => exact h.elim

theorem alike_ite {c : Prop} [Decidable c] {r r' q q' : Res α} (hr : c → r.Alike e s r') (hq : ¬ c → q.Alike e s q') :
    (if c then r else q).Alike e s (if c then r' else q') := by
  by_cases hc : c
  · rw [if_pos hc, if_pos hc]; exact hr hc
  · rw [if_neg hc, if_neg hc]; exact hq hc

/-- The rst counter is the instance's own, so the call is made in both or preempted in both (R280; log 6). -/
theorem external_alike {k : State → Res α} (h : sameFor e s s') (hk : ∀ t t', sameFor e t t' → (k t).Alike e t (k t')) :
    (external e s k).Alike e s (external e s' k) := by
  unfold external
  rw [h.side]
  cases (s.side e).rstAt with
  | none => exact hk s s' h
  | some n =>
    cases n with
    | zero => exact alike_stop h.resetEngine (sends_resetEngine e s)
    | succ n => exact alike_mono (sends_setSide e s _) (hk _ _ (h.setSide _))
end Pairs

/-! ### The external calls and the CODEC, run twice -/

section CallsTwice
variable {e : Role} {s s' : State}

theorem record_alike (h : sameFor e s s') (ev : Event) : (record e ev s).Alike e s (record e ev s') := by
  refine external_alike h fun t t' ht => ?_
  rw [ht.side]
  exact alike_setSide () ht _

theorem srcSeek_alike (h : sameFor .sender s s') (i : Nat) : (srcSeek i s).Alike .sender s (srcSeek i s') := by
  refine external_alike h fun t t' ht => ?_
  rw [ht.src]
  exact alike_setSrc () ht _

theorem srcNext_alike (h : sameFor .sender s s') : (srcNext s).Alike .sender s (srcNext s') := by
  refine external_alike h fun t t' ht => ?_
  rw [ht.src]
  cases t.src.chunks[t.src.cursor]? with
  | none => exact alike_same _ ht
  | some d => exact alike_setSrc _ ht _

theorem sinkAppend_alike (h : sameFor .receiver s s') (d : List Byte) :
    (sinkAppend d s).Alike .receiver s (sinkAppend d s') := by
  refine external_alike h fun t t' ht => ?_
  rw [ht.sink]
  exact alike_ok () (ht.setSink _) (sends_of_eq rfl)

theorem chSend_alike {b : Datagram} (h : sameFor e s s') (hb : wholeFrame e b) :
    (chSend e b s).Alike e s (chSend e b s') := by
  refine external_alike h fun t t' ht => ?_
  rw [ht.side]
  cases (t.side e).answers with
  | nil => exact alike_ok () (ht.deposit b) (sends_deposit t hb)
  | cons a rest =>
    have hset := ht.setSide { t.side e with answers := rest }
    have hspent := sends_setSide e t { t.side e with answers := rest }
    cases a with
    | taken => exact alike_ok () (hset.deposit b) (hspent.trans (sends_deposit _ hb))
    | lost => exact alike_ok () hset hspent
    | error kept =>
      cases kept with
      | false => exact alike_mono hspent (alike_raise hset _)
      | true => exact alike_mono (hspent.trans (sends_deposit _ hb)) (alike_raise (hset.deposit b) _)

theorem encodeOp_alike {f : Frame} (h : sameFor e s s') (hf : frameWf f = true) :
    (encodeOp e f s).Alike e s (encodeOp e f s') := by
  have hp : f.payload.length = 30 := ((frameWf_iff f).1 hf).2
  rw [encodeOp_eq e f s hp, encodeOp_eq e f s' hp]
  exact alike_ok _ (h.encoded f) (sends_of_eq (by simp))

theorem sendFrame_alike {f : Frame} (h : sameFor e s s') (hf : frameWf f = true) (hk : sendsKind e f.kind) :
    (sendFrame e f s).Alike e s (sendFrame e f s') := by
  have hp : f.payload.length = 30 := ((frameWf_iff f).1 hf).2
  rw [sendFrame, sendFrame, encodeOp_eq e f s hp, encodeOp_eq e f s' hp, bind_ok, bind_ok]
  exact alike_mono (sends_of_eq (by simp)) (chSend_alike (h.encoded f) ⟨f, hf, hk, rfl⟩)

/-- SND's two sends of a chunk, under whatever number (R144, R146). -/
theorem sendChunk_alike (h : sameFor .sender s s') (n : Seq) {d : List Byte} (hd : ¬ Config.chunkBytes < d.length) :
    (sendFrame .sender (frameData n (BitVec.ofNat 5 d.length) d) s).Alike .sender s
      (sendFrame .sender (frameData n (BitVec.ofNat 5 d.length) d) s') :=
  sendFrame_alike h (chunkData_wf n hd) (.inl rfl)

theorem decodeOp_alike (h : sameFor e s s') (b : Datagram) : (decodeOp e b s).Alike e s (decodeOp e b s') := by
  cases hb : decodeFrame b with
  | ok f =>
    rw [decodeOp_ok e s hb, decodeOp_ok e s' hb, h.side]
    exact alike_setSide f h _
  | error err =>
    rw [decodeOp_error e s hb, decodeOp_error e s' hb]
    exact alike_raise h _
end CallsTwice

/-! ### The operations of RCV, run twice -/

section ReceivingTwice
variable {s s' : State} (h : sameFor .receiver s s')
include h

theorem rcvDataBody_alike (f : Body) : (rcvDataBody f s).Alike .receiver s (rcvDataBody f s') := by
  refine alike_bind (sinkAppend_alike h _) fun _ t t' ht => alike_bind (record_alike ht _) fun _ u u' hu => ?_
  dsimp only
  rw [hu.rcv]
  refine alike_bind (sendFrame_alike hu (frameAck_wf _) (.inl rfl)) fun _ v v' hv => ?_
  rw [hv.rcv]
  exact alike_setRcv () hv _

theorem rcvEotBody_alike (f : Body) : (rcvEotBody f s).Alike .receiver s (rcvEotBody f s') :=
  alike_bind (record_alike h _) fun _ _ _ ht =>
    alike_bind (sendFrame_alike ht (frameEotAck_wf _) (.inr rfl)) fun _ _ _ hu =>
      alike_ok () (hu.setRcvPhase _) (sends_of_eq rfl)

theorem rcvOooBody_alike : (rcvOooBody s).Alike .receiver s (rcvOooBody s') := by
  rw [rcvOooBody, rcvOooBody, h.rcv]
  exact sendFrame_alike h (frameAck_wf _) (.inl rfl)

theorem rcvIgnoreBody_alike : (rcvIgnoreBody s).Alike .receiver s (rcvIgnoreBody s') := alike_same () h

theorem rcvTimeoutBody_alike : (rcvTimeoutBody s).Alike .receiver s (rcvTimeoutBody s') := alike_same () h

theorem rcvFrameBody_alike (f : Frame) : (rcvFrameBody f s).Alike .receiver s (rcvFrameBody f s') := by
  rw [rcvFrameBody, rcvFrameBody, h.rcv]
  refine alike_ite (fun _ => ?_) fun _ => rcvOooBody_alike h
  cases f.kind with
  | data => exact rcvDataBody_alike h _
  | eot => exact rcvEotBody_alike h _
  | ack => exact rcvIgnoreBody_alike h
  | eotAck => exact rcvIgnoreBody_alike h

theorem rcvEventBody_alike (a : Answer) : (rcvEventBody a s).Alike .receiver s (rcvEventBody a s') := by
  cases a with
  | error => exact alike_raise h _
  | timeout => exact rcvTimeoutBody_alike h
  | buffer b => exact alike_bind (decodeOp_alike h b) fun f _ _ ht => rcvFrameBody_alike ht f
end ReceivingTwice

/-! ### The operations of SND, run twice -/

section SendingTwice
variable {s s' : State}

theorem txNewBody_alike (h : sameFor .sender s s') : (txNewBody s).Alike .sender s (txNewBody s') := by
  refine alike_bind (srcNext_alike h) fun a t t' ht => ?_
  cases a with
  | exhausted =>
    dsimp only
    rw [ht.snd]
    exact alike_setSnd () ht _
  | chunk d isLast =>
    dsimp only
    rw [ht.snd]
    refine alike_ite (fun _ => alike_raise ht _) fun _ => alike_ite (fun _ => alike_raise ht _) fun hd =>
      alike_ite (fun _ => alike_raise ht _) fun _ => alike_bind (sendChunk_alike ht _ hd) fun _ u u' hu => ?_
    rw [hu.snd]
    exact alike_setSnd () hu _

theorem fillLoop_alike (n : Nat) (h : sameFor .sender s s') : (fillLoop n s).Alike .sender s (fillLoop n s') := by
  induction n generalizing s s' with
  | zero => exact alike_same () h
  | succ n ih =>
    rw [fillLoop, fillLoop, h.snd]
    exact alike_ite (fun _ => alike_bind (txNewBody_alike h) fun _ _ _ ht => ih ht) fun _ => alike_same () h

theorem txOldBody_alike (h : sameFor .sender s s') (en : Entry) : (txOldBody en s).Alike .sender s (txOldBody en s') := by
  refine alike_bind (srcSeek_alike h _) fun _ t t' ht => alike_bind (srcNext_alike ht) fun a u u' hu => ?_
  cases a with
  | exhausted => exact alike_raise hu _
  | chunk d isLast =>
    exact alike_ite (fun _ => alike_raise hu _) fun _ => alike_ite (fun _ => alike_raise hu _) fun hd =>
      sendChunk_alike hu _ hd

theorem txOldAll_alike (l : List Entry) (h : sameFor .sender s s') : (txOldAll l s).Alike .sender s (txOldAll l s') := by
  induction l generalizing s s' with
  | nil => exact alike_same () h
  | cons en rest ih => exact alike_bind (txOldBody_alike h en) fun _ _ _ ht => ih ht

variable (h : sameFor .sender s s')
include h

theorem fillBody_alike : (fillBody s).Alike .sender s (fillBody s') := fillLoop_alike _ h

theorem resendBody_alike : (resendBody s).Alike .sender s (resendBody s') := by
  rw [resendBody, resendBody, h.snd]
  refine alike_bind (txOldAll_alike _ h) fun _ t t' ht => ?_
  dsimp only
  rw [ht.snd]
  refine alike_bind (srcSeek_alike ht _) fun _ u u' hu => ?_
  rw [hu.snd]
  exact alike_setSnd () hu _

theorem eotSendBody_alike : (eotSendBody s).Alike .sender s (eotSendBody s') := by
  rw [eotSendBody, eotSendBody, h.snd]
  exact alike_bind (sendFrame_alike h (frameEot_wf _) (.inr rfl)) fun _ _ _ ht => alike_setSndPhase () ht _

theorem cycleFill_alike : (cycleFill s).Alike .sender s (cycleFill s') := by
  rw [cycleFill, cycleFill, h.snd]
  exact alike_ite (fun _ => fillBody_alike h) fun _ => alike_same () h

theorem cycleResend_alike : (cycleResend s).Alike .sender s (cycleResend s') := by
  rw [cycleResend, cycleResend, h.snd]
  exact alike_ite (fun _ => resendBody_alike h) fun _ => alike_same () h

theorem sndCycleBody_alike : (sndCycleBody s).Alike .sender s (sndCycleBody s') := by
  rw [sndCycleBody, sndCycleBody, h.snd]
  exact alike_ite (fun _ => eotSendBody_alike h) fun _ => alike_bind (cycleFill_alike h) fun _ _ _ ht =>
    alike_bind (cycleResend_alike ht) fun _ _ _ hu => alike_setSndPhase () hu _

theorem timeoutBody_alike : (timeoutBody s).Alike .sender s (timeoutBody s') := by
  rw [timeoutBody, timeoutBody, h.snd]
  exact alike_setSnd () h _

theorem ackCumBody_alike (count : Nat) : (ackCumBody count s).Alike .sender s (ackCumBody count s') := by
  rw [ackCumBody, ackCumBody, h.snd]
  exact alike_setSnd () h _

theorem ackLateBody_alike : (ackLateBody s).Alike .sender s (ackLateBody s') := by
  rw [ackLateBody, ackLateBody, h.snd]
  exact ackCumBody_alike h _

theorem ackDiscardBody_alike : (ackDiscardBody s).Alike .sender s (ackDiscardBody s') := alike_same () h

theorem sndIgnoreBody_alike : (sndIgnoreBody s).Alike .sender s (sndIgnoreBody s') := alike_same () h

theorem resyncBody_alike (n : Seq) : (resyncBody n s).Alike .sender s (resyncBody n s') := by
  rw [resyncBody, resyncBody, resyncWith, resyncWith, h.adj, h.snd]
  cases resyncAdj s.adj s.snd.ackedCount with
  | none => exact alike_raise h _
  | some a =>
    have hrewind := alike_mono (s := s) (sends_of_eq rfl) (srcSeek_alike (h.setSnd (resyncRegs n a s.snd)) a.toNat)
    refine alike_bind hrewind fun _ t t' ht => ?_
    rw [ht.snd]
    exact alike_setSnd () ht _

theorem ackResyncBody_alike (n : Seq) : (ackResyncBody n s).Alike .sender s (ackResyncBody n s') := resyncBody_alike h n

theorem ackBody_alike (n : Seq) : (ackBody n s).Alike .sender s (ackBody n s') := by
  rw [ackBody, ackBody, h.snd]
  refine alike_ite (fun _ => ackDiscardBody_alike h) fun _ => alike_bind (record_alike h _) fun _ t t' ht => ?_
  rw [ht.snd]
  cases scanWindow n (window t.snd) with
  | some count => exact ackCumBody_alike ht count
  | none => exact alike_ite (fun _ => ackLateBody_alike ht) fun _ => ackResyncBody_alike ht n

theorem sndFrameBody_alike (f : Frame) : (sndFrameBody f s).Alike .sender s (sndFrameBody f s') := by
  unfold sndFrameBody
  cases f.kind with
  | ack => exact ackBody_alike h _
  | data => exact sndIgnoreBody_alike h
  | eotAck => exact sndIgnoreBody_alike h
  | eot => exact sndIgnoreBody_alike h

theorem sndAnswerBody_alike (a : Answer) : (sndAnswerBody a s).Alike .sender s (sndAnswerBody a s') := by
  cases a with
  | error => exact alike_raise h _
  | timeout => exact timeoutBody_alike h
  | buffer b => exact alike_bind (decodeOp_alike h b) fun f _ _ ht => sndFrameBody_alike ht f

theorem sndEventBody_alike (a : Answer) : (sndEventBody a s).Alike .sender s (sndEventBody a s') :=
  alike_bind (sndAnswerBody_alike h a) fun _ _ _ ht => alike_setSndPhase () ht _

theorem eotAckedBody_alike (n : Seq) : (eotAckedBody n s).Alike .sender s (eotAckedBody n s') :=
  alike_bind (record_alike h _) fun _ _ _ ht => alike_setSndPhase () ht _

theorem eotOtherBody_alike (n : Seq) : (eotOtherBody n s).Alike .sender s (eotOtherBody n s') := by
  refine alike_bind (resyncBody_alike h n) fun _ t t' ht => ?_
  rw [ht.snd]
  exact alike_setSnd () ht _

theorem eotTimeoutBody_alike : (eotTimeoutBody s).Alike .sender s (eotTimeoutBody s') := alike_setSndPhase () h _

theorem eotFrameBody_alike (f : Frame) : (eotFrameBody f s).Alike .sender s (eotFrameBody f s') := by
  unfold eotFrameBody
  cases f.kind with
  | eotAck => exact eotAckedBody_alike h _
  | ack => exact eotOtherBody_alike h _
  | data => exact eotOtherBody_alike h _
  | eot => exact eotOtherBody_alike h _

theorem eotEventBody_alike (a : Answer) : (eotEventBody a s).Alike .sender s (eotEventBody a s') := by
  cases a with
  | error => exact alike_raise h _
  | timeout => exact eotTimeoutBody_alike h
  | buffer b => exact alike_bind (decodeOp_alike h b) fun f _ _ ht => eotFrameBody_alike ht f
end SendingTwice

/-! ### The rows, run twice -/

/-- Where a row answers from `s` it answers from the other state too, with states that look the same to its engine; and all it
has put in the peer's bag is whole frames. -/
def RowAlike (e : Role) (s : State) (o o' : Host.Outcome State Fault Refusal) : Prop :=
  ∀ t, o = .next t → Sends e s t ∧ ∃ t', o' = .next t' ∧ sameFor e t t'

section RowsTwice
variable {e : Role} {s s' : State}

theorem outcome_alike {α : Type} {r r' : Res α} (h : r.Alike e s r') : RowAlike e s r.outcome r'.outcome := by
  intro t ht
  cases r with
  | ok a u =>
    cases ht
    cases r' with
    | ok a' u' =>
      obtain ⟨_, hu, hsent⟩ := h
      exact ⟨hsent, u', rfl, hu⟩
    | stop u' => exact h.elim
    | halt f => exact h.elim
  | stop u =>
    cases ht
    cases r' with
    | ok a' u' => exact h.elim
    | stop u' =>
      obtain ⟨hu, hsent⟩ := h
      exact ⟨hsent, u', rfl, hu⟩
    | halt f => exact h.elim
  | halt f => cases ht

theorem rowAlike_next {t t' : State} (h : sameFor e t t') (hs : Sends e s t) : RowAlike e s (.next t) (.next t') := by
  rintro _ ⟨⟩
  exact ⟨hs, t', rfl, h⟩

theorem rowAlike_refused (r : Refusal) (o : Host.Outcome State Fault Refusal) : RowAlike e s (.refused r) o := by
  intro t ht
  cases ht

/-- A row whose context is the same in both states. -/
theorem row_alike {α : Type} {r r' : Res α} {c c' : Bool} {m : String} (hc : c' = c) (h : r.Alike e s r') :
    RowAlike e s (onlyWhen c m r.outcome) (onlyWhen c' m r'.outcome) := by
  subst hc
  cases c' with
  | true => exact outcome_alike h
  | false => exact rowAlike_refused _ _

theorem execData_alike (h : sameFor .sender s s') (n : Seq) (len : Len) (d : List Byte) :
    RowAlike .sender s (execData n len d s) (execData n len d s') := by
  unfold execData
  by_cases hr : len.toNat ≤ Config.chunkBytes ∧ d.length = len.toNat
  · obtain ⟨hlen, hd⟩ := hr
    rw [if_pos ⟨hlen, hd⟩, if_pos ⟨hlen, hd⟩]
    exact outcome_alike (encodeOp_alike h ((frameWf_iff _).2 ⟨hlen, frameData_payload_length n len d (hd.trans_le hlen)⟩))
  · rw [if_neg hr]
    exact rowAlike_refused _ _

theorem execEncode_alike (h : sameFor e s s') (f : Frame) : RowAlike e s (execEncode e f s) (execEncode e f s') := by
  unfold execEncode
  by_cases hf : frameWf f = true
  · rw [if_pos hf, if_pos hf]
    exact outcome_alike (encodeOp_alike h hf)
  · rw [if_neg hf]
    exact rowAlike_refused _ _

theorem execTxOld_alike (h : sameFor .sender s s') (j : BitVec 3) :
    RowAlike .sender s (execTxOld j s) (execTxOld j s') := by
  rw [execTxOld, execTxOld, h.snd]
  cases (window s.snd)[j.toNat]? with
  | none => exact rowAlike_refused _ _
  | some en => exact row_alike rfl (txOldBody_alike h en)

theorem execSndStart_alike (h : sameFor .sender s s') : RowAlike .sender s (execSndStart s) (execSndStart s') := by
  rw [execSndStart, execSndStart, h.snd, h.src]
  split
  · split
    · exact rowAlike_next (h.setSndPhase _) (sends_of_eq rfl)
    · exact rowAlike_refused _ _
  · exact rowAlike_next h (sends_of_eq rfl)

theorem execRcvStart_alike (h : sameFor .receiver s s') : RowAlike .receiver s (execRcvStart s) (execRcvStart s') := by
  rw [execRcvStart, execRcvStart, h.rcv]
  split
  · exact rowAlike_next (h.setRcvPhase _) (sends_of_eq rfl)
  · exact rowAlike_next h (sends_of_eq rfl)

/-- Every row of the table reads only what belongs to its engine, and sends only whole frames of its engine's kinds. -/
theorem exec_alike {i : Instr} (h : sameFor (engineOf i) s s') : RowAlike (engineOf i) s (exec i s) (exec i s') := by
  cases i with
  | ack n => exact outcome_alike (encodeOp_alike h (frameAck_wf n))
  | data n len d => exact execData_alike h n len d
  | eotAck n => exact outcome_alike (encodeOp_alike h (frameEotAck_wf n))
  | eot n => exact outcome_alike (encodeOp_alike h (frameEot_wf n))
  | ackRx f => exact row_alike h.inWait (ackBody_alike h f.seq)
  | ackDiscard f => exact row_alike (by rw [h.inWait, h.snd]) (ackDiscardBody_alike h)
  | ackCum f =>
    change RowAlike .sender s (execAckCum f s) (execAckCum f s')
    rw [execAckCum, execAckCum, h.snd]
    exact row_alike (by rw [h.inWait]) (ackCumBody_alike h _)
  | ackLate f => exact row_alike (by rw [h.inWait, h.snd]) (ackLateBody_alike h)
  | ackResync f => exact row_alike (by rw [h.inWait, h.snd]) (ackResyncBody_alike h f.seq)
  | sndIgnoreData f => exact row_alike h.inWait (sndIgnoreBody_alike h)
  | sndIgnoreEotAck f => exact row_alike h.inWait (sndIgnoreBody_alike h)
  | sndIgnoreEot f => exact row_alike h.inWait (sndIgnoreBody_alike h)
  | eotAcked f => exact row_alike h.inEotWait (eotAckedBody_alike h f.seq)
  | eotOtherAck f => exact row_alike h.inEotWait (eotOtherBody_alike h f.seq)
  | eotOtherData f => exact row_alike h.inEotWait (eotOtherBody_alike h f.seq)
  | eotOtherEot f => exact row_alike h.inEotWait (eotOtherBody_alike h f.seq)
  | rcvData f => exact row_alike (by rw [h.rcvWaiting, h.inOrder]) (rcvDataBody_alike h f)
  | rcvEot f => exact row_alike (by rw [h.rcvWaiting, h.inOrder]) (rcvEotBody_alike h f)
  | rcvOoo k f => exact row_alike (by rw [h.rcvWaiting, h.inOrder]) (rcvOooBody_alike h)
  | rcvIgnoreAck f => exact row_alike (by rw [h.rcvWaiting, h.inOrder]) (rcvIgnoreBody_alike h)
  | rcvIgnoreEotAck f => exact row_alike (by rw [h.rcvWaiting, h.inOrder]) (rcvIgnoreBody_alike h)
  | encode e f => exact execEncode_alike h f
  | decode e b => exact row_alike h.receiving (decodeOp_alike h b)
  | sndStart => exact execSndStart_alike h
  | sndCycle => exact row_alike (by rw [h.snd]) (sndCycleBody_alike h)
  | fill => exact row_alike (by rw [h.snd]) (fillBody_alike h)
  | txNew => exact row_alike (by rw [h.snd]) (txNewBody_alike h)
  | resend => exact row_alike (by rw [h.snd]) (resendBody_alike h)
  | txOld j => exact execTxOld_alike h j
  | sndEvent a => exact row_alike h.inWait (sndEventBody_alike h a)
  | timeout => exact row_alike h.inWait (timeoutBody_alike h)
  | resync n => exact row_alike (by rw [h.inWait, h.snd]) (resyncBody_alike h n)
  | eotSend => exact row_alike (by rw [h.snd]) (eotSendBody_alike h)
  | eotEvent a => exact row_alike h.inEotWait (eotEventBody_alike h a)
  | eotTimeout => exact row_alike h.inEotWait (eotTimeoutBody_alike h)
  | rcvStart => exact execRcvStart_alike h
  | rcvEvent a => exact row_alike h.rcvWaiting (rcvEventBody_alike h a)
  | rcvTimeout => exact row_alike h.rcvWaiting (rcvTimeoutBody_alike h)
  | reset e => exact rowAlike_next h.resetEngine (sends_resetEngine e s)
end RowsTwice

/-- Settles O55: `exec_alike`, engine by engine. -/
theorem enginesLearnOnlyFromFrames : Obligations.EnginesLearnOnlyFromFrames := by
  intro i s s' t ht
  have hrow : sameFor (engineOf i) s s' → ∃ t', exec i s' = .next t' ∧ sameFor (engineOf i) t t' := fun h =>
    (exec_alike h t ht).2
  constructor <;> intro he <;> rw [he] at hrow <;> exact hrow

/-! ### The bags along a step -/

theorem sameFor_refl (e : Role) (s : State) : sameFor e s s := by
  cases e with
  | sender => exact ⟨rfl, rfl, rfl, rfl⟩
  | receiver => exact ⟨rfl, rfl, rfl⟩

theorem exec_sends {i : Instr} {s t : State} (h : exec i s = .next t) : Sends (engineOf i) s t :=
  (exec_alike (sameFor_refl _ s) t h).1

/-- What is in the bag towards an instance was there before, or is a whole frame of its peer. -/
def BagFrom (s t : State) (e : Role) : Prop :=
  ∀ b ∈ (t.side e).inbox, b ∈ (s.side e).inbox ∨ wholeFrame (peer e) b

/-- A row puts whole frames in the peer's bag, and nothing in the bag of its own instance. -/
theorem exec_bagFrom {i : Instr} {s t : State} (h : exec i s = .next t) (e : Role) : BagFrom s t e := by
  intro b hb
  rcases eq_or_eq_peer (engineOf i) e with rfl | rfl
  · exact .inl ((exec_ran h).moves.work.inbox ▸ hb)
  · obtain ⟨more, hm, hwhole⟩ := exec_sends h
    have hpp : peer (peer (engineOf i)) = engineOf i := by cases engineOf i <;> rfl
    rw [hm, List.mem_append] at hb
    exact hb.imp_right fun hb => hpp.symm ▸ hwhole b hb

/-- Fetching brings no new datagram into a bag; the row that is performed then sends whole frames. -/
theorem step_bagFrom {s t : State} (h : step s = .next t) (e : Role) : BagFrom s t e := by
  have hd := fetch_does s
  cases hf : fetch s with
  | perform i u =>
    rw [hf] at hd
    rw [step_of_perform hf] at h
    exact fun b hb => (exec_bagFrom h e b hb).imp_left ((hd.side e).bag b)
  | still u =>
    rw [hf] at hd
    rw [step_of_still hf] at h
    cases h
    exact fun b hb => .inl ((hd.side e).bag b hb)
  | reject r =>
    rw [step_of_reject hf] at h
    cases h

/-- Settles O56: `step_bagFrom` for the bag towards RCV and for the one towards SND. -/
theorem bagsHoldOnlyWholeFrames : Obligations.BagsHoldOnlyWholeFrames :=
  fun _ _ h => ⟨step_bagFrom h .receiver, step_bagFrom h .sender⟩

end Sys2Proof.Machine

/-! PROOFS of the encoding family (30_encoding.md): the decoder reads back what the encoder writes and answers only well-formed
rows (R91 to R99), a row is performed exactly in its context, and an event performs the row of the operation map (R98). The two
encoding statements turn on `decodeFrame_eq_ok_iff`, which says once which buffers DECODE takes and as what. -/

namespace Sys2Proof.Machine

/-! ### The frames DECODE takes -/

/-- DECODE finds no fault in a buffer: none of the tests of R121 fails. -/
def legalBuffer (b : Datagram) : Prop :=
  33 ≤ b.length ∧ (b.getD 0 0#8).toNat ≤ 3 ∧ (b.getD 1 0#8).toNat ≤ 7 ∧ (b.getD 2 0#8).toNat ≤ 30

/-- The fields that stand in the first 33 bytes of a buffer (R91). -/
def frameOf (b : Datagram) : Frame :=
  { kind := kindOfByte (b.getD 0 0#8)
    seq := (b.getD 1 0#8).setWidth 3
    len := (b.getD 2 0#8).setWidth 5
    payload := (b.drop 3).take 30 }

/-- DECODE answers a frame for the legal buffers alone, and then the fields that stand there (R91, R121). -/
theorem decodeFrame_eq_ok_iff {b : Datagram} {f : Frame} : decodeFrame b = .ok f ↔ legalBuffer b ∧ frameOf b = f := by
  unfold decodeFrame
  split_ifs with hlength hkind hseq hlen
  · exact iff_of_false nofun fun ⟨⟨h, _, _, _⟩, _⟩ => hlength.not_ge h
  · exact iff_of_false nofun fun ⟨⟨_, h, _, _⟩, _⟩ => hkind.not_ge h
  · exact iff_of_false nofun fun ⟨⟨_, _, h, _⟩, _⟩ => hseq.not_ge h
  · exact iff_of_false nofun fun ⟨⟨_, _, _, h⟩, _⟩ => hlen.not_ge h
  · have hlegal : legalBuffer b := ⟨not_lt.1 hlength, not_lt.1 hkind, not_lt.1 hseq, not_lt.1 hlen⟩
    exact ⟨fun h => ⟨hlegal, Except.ok.inj h⟩, fun ⟨_, h⟩ => congrArg Except.ok h⟩

/-! ### Reading back what was written -/

@[simp] theorem kindOfByte_kindCode (k : Kind) : kindOfByte (kindCode k) = k := by cases k <;> rfl

theorem kindCode_le (k : Kind) : (kindCode k).toNat ≤ 3 := by cases k <;> decide

/-- A sequence number stands in a byte as itself (R93). -/
theorem seqByte_toNat (n : Seq) : (n.setWidth 8).toNat = n.toNat := BitVec.toNat_setWidth_of_le (by decide)

/-- A length stands in a byte as itself (R94). -/
theorem lenByte_toNat (n : Len) : (n.setWidth 8).toNat = n.toNat := BitVec.toNat_setWidth_of_le (by decide)

/-- DECODE of the 33 bytes of a valid frame is that frame (R91, R120, R121). -/
theorem decodeFrame_encodeFrame {f : Frame} (hf : frameWf f = true) : decodeFrame (encodeFrame f) = .ok f := by
  obtain ⟨hlen, hslot⟩ := (frameWf_iff f).1 hf
  have hlegal : legalBuffer (encodeFrame f) :=
    ⟨by simp [hslot], kindCode_le f.kind, (seqByte_toNat f.seq).trans_le (Nat.le_of_lt_succ f.seq.isLt),
      (lenByte_toNat f.len).trans_le hlen⟩
  have hfields : frameOf (encodeFrame f) = f := by
    simp [frameOf, encodeFrame, List.take_of_length_le hslot.le]
  exact decodeFrame_eq_ok_iff.2 ⟨hlegal, hfields⟩

theorem decodeFrameAs_ok {b : Datagram} {f : Frame} (h : decodeFrame b = .ok f) (row : Frame → Instr) :
    decodeFrameAs b row = .ok (row f) := by
  simp only [decodeFrameAs, h]

/-- A frame's bytes select the row its reader's chooser names (R98). -/
theorem decodeFrameAs_encodeFrame {f : Frame} (hf : frameWf f = true) (row : Frame → Instr) :
    decodeFrameAs (encodeFrame f) row = .ok (row f) :=
  decodeFrameAs_ok (decodeFrame_encodeFrame hf) row

/-- The branch ACK has chosen reads an Ack frame as its own row (R173). -/
theorem decodeIn_sndAck_encodeFrame {f : Frame} (hf : frameWf f = true) (hk : f.kind = .ack) (br : AckBranch) :
    decodeIn (.sndAck br) (encodeFrame f) = .ok (ackBranchRow br f) := by
  simp only [decodeIn, decodeFrame_encodeFrame hf, hk, if_true]

/-- The CODEC reads a frame as its constructor row (R101). -/
theorem decode_encodeFrame {f : Frame} (hf : frameWf f = true) : decode (encodeFrame f) = .ok (constructorOf f) := by
  have hop : decode (encodeFrame f) = decodeFrameAs (encodeFrame f) constructorOf := if_pos (kindCode_le f.kind)
  rw [hop, decodeFrameAs_encodeFrame hf]

theorem bodyFrame_wf {k : Kind} {f : Body} (hf : bodyWf f = true) : frameWf (bodyFrame k f) = true := hf

/-- Data's frame is valid where its operands are in range (R123). -/
theorem frameData_wf {n : Seq} {len : Len} {d : List Byte} (hlen : len.toNat ≤ 30) (hd : d.length = len.toNat) :
    frameWf (frameData n len d) = true :=
  (frameWf_iff _).2 ⟨hlen, frameData_payload_length n len d (hd.trans_le hlen)⟩

/-- The padding is what Data's constructor row drops (R95). -/
theorem constructorOf_frameData {n : Seq} {len : Len} {d : List Byte} (hd : d.length = len.toNat) :
    constructorOf (frameData n len d) = .data n len d :=
  congrArg (Instr.data n len) (List.take_left' hd)

/-! ### The operands of the LOCAL rows (log 10) -/

@[simp] theorem roleOfByte_roleCode (e : Role) : roleOfByte (roleCode e) = .ok e := by cases e <;> rfl

@[simp] theorem decodeSeq_seqByte (n : Seq) (rest : List Byte) : decodeSeq (n.setWidth 8 :: rest) = .ok n := by
  have hle : ¬ 7 < (n.setWidth 8).toNat := by rw [seqByte_toNat]; omega
  simp only [decodeSeq, if_neg hle]
  simp

theorem decodeIndex_indexByte {j : BitVec 3} (hj : j.toNat < 7) (rest : List Byte) :
    decodeIndex (j.setWidth 8 :: rest) = .ok j := by
  have hle : ¬ 6 < (j.setWidth 8).toNat := by rw [seqByte_toNat]; omega
  simp only [decodeIndex, if_neg hle]
  simp

/-- The two length bytes of a datagram operand give back its length. -/
theorem lengthBytes_toNat {k : Nat} (h : k < 65536) :
    (BitVec.ofNat 8 k).toNat + 256 * (BitVec.ofNat 8 (k / 256)).toNat = k := by
  simp only [BitVec.toNat_ofNat]; omega

theorem decodeDatagram_encodeDatagram {b : Datagram} (hb : datagramWf b = true) :
    decodeDatagram (encodeDatagram b) = .ok b := by
  have hlen := lengthBytes_toNat (of_decide_eq_true hb)
  simp only [decodeDatagram, encodeDatagram, hlen, lt_irrefl, if_false, List.take_length]

theorem decodeAnswer_encodeAnswer {a : Answer} (ha : answerWf a = true) : decodeAnswer (encodeAnswer a) = .ok a := by
  cases a with
  | timeout => rfl
  | error => rfl
  | buffer b => simp [encodeAnswer, decodeAnswer, decodeDatagram_encodeDatagram ha]

@[simp] theorem withOperand_ok {α : Type} (a : α) (mk : α → Instr) : withOperand (.ok a) mk = .ok (mk a) := rfl

/-- Every index of R99 is above the frame kinds, so the CODEC reads its row. -/
theorem decode_eq_decodeLocal {op : Byte} (rest : List Byte) (h : 3 < op.toNat) :
    decode (op :: rest) = decodeLocal op rest := if_neg h.not_ge

/-- A LOCAL row with one operand is read where its operand is. -/
theorem decode_withOperand {α : Type} {op : Byte} {rest : List Byte} {r : Except DecodeError α} {mk : α → Instr} {a : α}
    (hop : 3 < op.toNat) (hrow : decodeLocal op rest = withOperand r mk) (ha : r = .ok a) :
    decode (op :: rest) = .ok (mk a) := by
  rw [decode_eq_decodeLocal rest hop, hrow, ha, withOperand_ok]

section LocalRows
variable (rest : List Byte)
theorem decodeLocal_encode : decodeLocal 0x10#8 rest = decodeEncode rest := rfl
theorem decodeLocal_decode : decodeLocal 0x11#8 rest = decodeDecode rest := rfl
theorem decodeLocal_txOld : decodeLocal 0x25#8 rest = withOperand (decodeIndex rest) Instr.txOld := rfl
theorem decodeLocal_sndEvent : decodeLocal 0x26#8 rest = withOperand (decodeAnswer rest) Instr.sndEvent := rfl
theorem decodeLocal_resync : decodeLocal 0x28#8 rest = withOperand (decodeSeq rest) Instr.resync := rfl
theorem decodeLocal_eotEvent : decodeLocal 0x2A#8 rest = withOperand (decodeAnswer rest) Instr.eotEvent := rfl
theorem decodeLocal_rcvEvent : decodeLocal 0x31#8 rest = withOperand (decodeAnswer rest) Instr.rcvEvent := rfl
theorem decodeLocal_reset : decodeLocal 0x3F#8 rest = decodeReset rest := rfl
end LocalRows

/-! ### Every row of the table, read back -/

/-- Settles O2: a frame row by `decodeFrame_encodeFrame` and its reader's chooser, a LOCAL row by its operand's round trip. -/
theorem decodeReadsBackEveryInstruction : Obligations.DecodeReadsBackEveryInstruction := by
  intro i r hwf hr
  cases i with
  | ack n =>
    obtain rfl := of_decide_eq_true hr
    exact decode_encodeFrame (frameAck_wf n)
  | data n len d =>
    obtain rfl := of_decide_eq_true hr
    obtain ⟨hlen, hd⟩ := Bool.and_eq_true_iff.1 hwf
    have hd : d.length = len.toNat := of_decide_eq_true hd
    exact (decode_encodeFrame (frameData_wf (of_decide_eq_true hlen) hd)).trans
      (congrArg Except.ok (constructorOf_frameData hd))
  | eotAck n =>
    obtain rfl := of_decide_eq_true hr
    exact decode_encodeFrame (frameEotAck_wf n)
  | eot n =>
    obtain rfl := of_decide_eq_true hr
    exact decode_encodeFrame (frameEot_wf n)
  | ackRx f | sndIgnoreData f | sndIgnoreEotAck f | sndIgnoreEot f =>
    obtain rfl := of_decide_eq_true hr
    exact decodeFrameAs_encodeFrame (bodyFrame_wf hwf) sndWaitRow
  | ackDiscard f | ackCum f | ackLate f | ackResync f =>
    obtain rfl := of_decide_eq_true hr
    exact decodeIn_sndAck_encodeFrame (bodyFrame_wf hwf) rfl _
  | eotAcked f | eotOtherAck f | eotOtherData f | eotOtherEot f =>
    obtain rfl := of_decide_eq_true hr
    exact decodeFrameAs_encodeFrame (bodyFrame_wf hwf) eotWaitRow
  | rcvData f | rcvEot f | rcvIgnoreAck f | rcvIgnoreEotAck f =>
    obtain rfl := of_decide_eq_true hr
    exact (decodeFrameAs_encodeFrame (bodyFrame_wf hwf) (rcvWaitRow f.seq)).trans (congrArg Except.ok (if_pos rfl))
  | rcvOoo k f =>
    cases r with
    | rcvWait e =>
      have hne : e ≠ f.seq := of_decide_eq_true hr
      exact (decodeFrameAs_encodeFrame (bodyFrame_wf hwf) (rcvWaitRow e)).trans (congrArg Except.ok (if_neg hne.symm))
    | codec | sndWait | sndAck _ | sndEotWait => cases hr
  | encode e f =>
    obtain rfl := of_decide_eq_true hr
    have hf : frameWf f = true := hwf
    rw [decodeIn, encode, decode_eq_decodeLocal _ (by decide), decodeLocal_encode]
    simp only [decodeEncode, roleOfByte_roleCode, decodeFrame_encodeFrame hf]
  | decode e b =>
    obtain rfl := of_decide_eq_true hr
    have hb : datagramWf b = true := hwf
    rw [decodeIn, encode, decode_eq_decodeLocal _ (by decide), decodeLocal_decode]
    simp only [decodeDecode, roleOfByte_roleCode, decodeDatagram_encodeDatagram hb]
  | reset e =>
    obtain rfl := of_decide_eq_true hr
    rw [decodeIn, encode, decode_eq_decodeLocal _ (by decide), decodeLocal_reset]
    simp only [decodeReset, roleOfByte_roleCode]
  | txOld j =>
    obtain rfl := of_decide_eq_true hr
    exact decode_withOperand (by decide) (decodeLocal_txOld _) (decodeIndex_indexByte (of_decide_eq_true hwf) [])
  | resync n =>
    obtain rfl := of_decide_eq_true hr
    exact decode_withOperand (by decide) (decodeLocal_resync _) (decodeSeq_seqByte n [])
  | sndEvent a =>
    obtain rfl := of_decide_eq_true hr
    exact decode_withOperand (by decide) (decodeLocal_sndEvent _) (decodeAnswer_encodeAnswer hwf)
  | eotEvent a =>
    obtain rfl := of_decide_eq_true hr
    exact decode_withOperand (by decide) (decodeLocal_eotEvent _) (decodeAnswer_encodeAnswer hwf)
  | rcvEvent a =>
    obtain rfl := of_decide_eq_true hr
    exact decode_withOperand (by decide) (decodeLocal_rcvEvent _) (decodeAnswer_encodeAnswer hwf)
  | sndStart | sndCycle | fill | txNew | resend | timeout | eotSend | eotTimeout | rcvStart | rcvTimeout =>
    obtain rfl := of_decide_eq_true hr
    rfl

/-- The words an instruction of the CODEC is written as are read as it. -/
theorem decode_of_encode_eq {i : Instr} {word : List Byte} (he : encode i = word) (hwf : instrWf i = true)
    (hr : readBy i .codec = true) : decode word = .ok i :=
  he ▸ decodeReadsBackEveryInstruction i .codec hwf hr

/-- Settles O4: each word is what the encoder writes for its row, so O2 reads it back. -/
theorem writtenWordsDecode : Obligations.WrittenWordsDecode :=
  ⟨decode_of_encode_eq rfl rfl rfl, decode_of_encode_eq rfl rfl rfl, decode_of_encode_eq rfl rfl rfl,
    decode_of_encode_eq rfl rfl rfl, decode_of_encode_eq rfl rfl rfl⟩

/-! ### What the decoder answers -/

/-- A byte that passed the length test keeps its value in 5 bits (R94, R121). -/
theorem lenField_le {c : Byte} (h : c.toNat ≤ 30) : (c.setWidth 5).toNat ≤ 30 :=
  (BitVec.toNat_setWidth 5 c ▸ Nat.mod_le _ _).trans h

/-- Whatever DECODE answers is a valid frame (R97, R121). -/
theorem decodeFrame_wf {b : Datagram} {f : Frame} (h : decodeFrame b = .ok f) : frameWf f = true := by
  obtain ⟨⟨hlength, _, _, hlen⟩, rfl⟩ := decodeFrame_eq_ok_iff.1 h
  refine (frameWf_iff _).2 ⟨lenField_le hlen, ?_⟩
  simp only [frameOf, List.length_take, List.length_drop]
  omega

/-- Data's row carries as many bytes as its length says (R123). -/
theorem constructorOf_wf {f : Frame} (hf : frameWf f = true) : instrWf (constructorOf f) = true := by
  obtain ⟨hlen, hslot⟩ := (frameWf_iff f).1 hf
  unfold constructorOf
  cases f.kind with
  | data => simp [instrWf, hlen, hslot]
  | ack | eotAck | eot => rfl

theorem sndWaitRow_wf {f : Frame} (hf : frameWf f = true) : instrWf (sndWaitRow f) = true := by
  unfold sndWaitRow
  cases f.kind <;> exact hf

theorem ackBranchRow_wf {f : Frame} (hf : frameWf f = true) (br : AckBranch) : instrWf (ackBranchRow br f) = true := by
  cases br <;> exact hf

theorem eotWaitRow_wf {f : Frame} (hf : frameWf f = true) : instrWf (eotWaitRow f) = true := by
  unfold eotWaitRow
  cases f.kind <;> exact hf

theorem rcvWaitRow_wf {f : Frame} (hf : frameWf f = true) (expected : Seq) : instrWf (rcvWaitRow expected f) = true := by
  unfold rcvWaitRow
  split
  · cases f.kind <;> exact hf
  · exact hf

/-- A reading answers only well-formed instructions, if it answers any. -/
def AnswersWf (r : Except DecodeError Instr) : Prop :=
  ∀ i, r = .ok i → instrWf i = true

theorem answersWf_ok {i : Instr} (h : instrWf i = true) : AnswersWf (.ok i) := by
  rintro _ ⟨⟩
  exact h

theorem answersWf_error (e : DecodeError) : AnswersWf (.error e) := nofun

theorem answersWf_ite {c : Prop} [Decidable c] {r q : Except DecodeError Instr} (hr : AnswersWf r) (hq : AnswersWf q) :
    AnswersWf (if c then r else q) := by
  split
  · exact hr
  · exact hq

/-- One index of R99 after another: the row of this one, or what is read for the others. -/
theorem answersWf_row {c : Prop} [Decidable c] {i : Instr} {r : Except DecodeError Instr} (hi : instrWf i = true)
    (hr : AnswersWf r) : AnswersWf (if c then .ok i else r) :=
  answersWf_ite (answersWf_ok hi) hr

theorem answersWf_withOperand {α : Type} {r : Except DecodeError α} {mk : α → Instr}
    (h : ∀ a, r = .ok a → instrWf (mk a) = true) : AnswersWf (withOperand r mk) := by
  cases r with
  | ok a => exact answersWf_ok (h a rfl)
  | error e => exact answersWf_error e

/-- An index operand is below 7 (R26, R146). -/
theorem decodeIndex_lt {l : List Byte} {j : BitVec 3} (h : decodeIndex l = .ok j) : j.toNat < 7 := by
  unfold decodeIndex at h
  split at h
  next c _ =>
    split at h <;> cases h
    next hc =>
      rw [BitVec.toNat_setWidth]
      omega
  next => cases h

/-- A datagram operand is as long as its two length bytes can say. -/
theorem decodeDatagram_wf {l : List Byte} {b : Datagram} (h : decodeDatagram l = .ok b) : datagramWf b = true := by
  unfold decodeDatagram at h
  split at h
  next lo hi rest =>
    split at h <;> cases h
    have hlo := lo.isLt
    have hhi := hi.isLt
    simp only [datagramWf, List.length_take, decide_eq_true_eq]
    omega
  next => cases h

theorem decodeAnswer_wf {l : List Byte} {a : Answer} (h : decodeAnswer l = .ok a) : answerWf a = true := by
  cases a with
  | timeout => rfl
  | error => rfl
  | buffer b =>
    unfold decodeAnswer at h
    split at h
    next tag rest =>
      split at h
      · cases h
      split at h
      · cases h
      split at h
      · split at h <;> cases h
        next hb => exact decodeDatagram_wf hb
      · cases h
    next => cases h

theorem decodeEncode_wf (l : List Byte) : AnswersWf (decodeEncode l) := by
  unfold decodeEncode
  split
  · split
    next hf => exact answersWf_ok (decodeFrame_wf hf)
    · exact answersWf_error _
    · exact answersWf_error _
  · exact answersWf_error _

theorem decodeDecode_wf (l : List Byte) : AnswersWf (decodeDecode l) := by
  unfold decodeDecode
  split
  · split
    next hb => exact answersWf_ok (decodeDatagram_wf hb)
    · exact answersWf_error _
    · exact answersWf_error _
  · exact answersWf_error _

theorem decodeReset_wf (l : List Byte) : AnswersWf (decodeReset l) := by
  unfold decodeReset
  split
  · split
    · exact answersWf_ok rfl
    · exact answersWf_error _
  · exact answersWf_error _

/-- Each index of R99 in turn: its row has no operand, or its operand is in range. -/
theorem decodeLocal_wf (op : Byte) (rest : List Byte) : AnswersWf (decodeLocal op rest) := by
  have hanswer : ∀ mk : Answer → Instr, (∀ a, instrWf (mk a) = answerWf a) →
      AnswersWf (withOperand (decodeAnswer rest) mk) := fun mk hmk =>
    answersWf_withOperand fun a ha => (hmk a).trans (decodeAnswer_wf ha)
  exact answersWf_ite (decodeEncode_wf rest) <| answersWf_ite (decodeDecode_wf rest) <|
    answersWf_row rfl <| answersWf_row rfl <| answersWf_row rfl <| answersWf_row rfl <| answersWf_row rfl <|
    answersWf_ite (answersWf_withOperand fun _ hj => decide_eq_true (decodeIndex_lt hj)) <|
    answersWf_ite (hanswer .sndEvent fun _ => rfl) <| answersWf_row rfl <|
    answersWf_ite (answersWf_withOperand fun _ _ => rfl) <| answersWf_row rfl <|
    answersWf_ite (hanswer .eotEvent fun _ => rfl) <| answersWf_row rfl <| answersWf_row rfl <|
    answersWf_ite (hanswer .rcvEvent fun _ => rfl) <| answersWf_row rfl <|
    answersWf_ite (decodeReset_wf rest) (answersWf_error _)

/-- A frame read with a row chooser that keeps valid frames' fields in range. -/
theorem decodeFrameAs_wf {row : Frame → Instr} (hrow : ∀ f, frameWf f = true → instrWf (row f) = true) (b : List Byte) :
    AnswersWf (decodeFrameAs b row) := by
  cases h : decodeFrame b with
  | ok f =>
    rw [decodeFrameAs_ok h]
    exact answersWf_ok (hrow f (decodeFrame_wf h))
  | error e =>
    rw [decodeFrameAs, h]
    exact answersWf_error _

theorem decode_wf (b : List Byte) : AnswersWf (decode b) := by
  cases b with
  | nil => exact answersWf_error _
  | cons op rest => exact answersWf_ite (decodeFrameAs_wf (fun _ => constructorOf_wf) (op :: rest)) (decodeLocal_wf op rest)

theorem decodeIn_sndAck_wf (br : AckBranch) (b : List Byte) : AnswersWf (decodeIn (.sndAck br) b) := by
  simp only [decodeIn]
  split
  next f hf => exact answersWf_ite (answersWf_ok (ackBranchRow_wf (decodeFrame_wf hf) br)) (answersWf_error _)
  · exact answersWf_error _

/-- Settles O3: reader by reader; a frame row by `decodeFrame_wf`, a LOCAL row by its operand's range. -/
theorem decodedInstructionsAreWellFormed : Obligations.DecodedInstructionsAreWellFormed := by
  intro r b
  cases r with
  | codec => exact decode_wf b
  | sndWait => exact decodeFrameAs_wf (fun _ => sndWaitRow_wf) b
  | sndAck br => exact decodeIn_sndAck_wf br b
  | sndEotWait => exact decodeFrameAs_wf (fun _ => eotWaitRow_wf) b
  | rcvWait expected => exact decodeFrameAs_wf (fun _ hf => rcvWaitRow_wf hf expected) b

/-! ### A row and its context -/

/-- The model refuses to perform a row here (log 12). -/
def NotSelected (o : Host.Outcome State Fault Refusal) : Prop :=
  ∃ m, o = .refused (.notSelected m)

/-- An operation that runs is not refused, however it comes out. -/
theorem not_notSelected_outcome {α : Type} (r : Res α) : ¬ NotSelected r.outcome := by
  cases r <;> exact nofun

/-- A row is refused exactly where its context does not hold. -/
theorem notSelected_onlyWhen {α : Type} {c : Bool} {P : Prop} {m : String} (r : Res α) (hc : c = true ↔ P) :
    NotSelected (onlyWhen c m r.outcome) ↔ ¬ P := by
  rw [← hc]
  cases c with
  | true => exact iff_of_false (not_notSelected_outcome r) (not_not.2 rfl)
  | false => exact iff_of_true ⟨m, rfl⟩ nofun

/-- A row of the CODEC or of the host interface has no context, and is never refused as not selected. -/
theorem notSelected_iff_of_free {o : Host.Outcome State Fault Refusal} (h : ¬ NotSelected o) : NotSelected o ↔ ¬ True :=
  iff_of_false h (not_not.2 trivial)

section Contexts
variable (s : State)

theorem inWait_iff : inWait s = true ↔ s.snd.phase = .wait := decide_eq_true_iff

theorem inEotWait_iff : inEotWait s = true ↔ s.snd.phase = .eotWait := decide_eq_true_iff

theorem rcvWaiting_iff : rcvWaiting s = true ↔ s.rcv.phase = .wait := decide_eq_true_iff

theorem inWait_branch_iff (n : Seq) (br : AckBranch) :
    (inWait s && decide (ackBranch n s.snd = br)) = true ↔ s.snd.phase = .wait ∧ ackBranch n s.snd = br := by
  simp [inWait]

theorem rcvInOrder_iff (f : Body) :
    (rcvWaiting s && inOrder f s) = true ↔ s.rcv.phase = .wait ∧ f.seq = s.rcv.expectedSeq := by
  simp [rcvWaiting, inOrder]

theorem rcvOutOfOrder_iff (f : Body) :
    (rcvWaiting s && !inOrder f s) = true ↔ s.rcv.phase = .wait ∧ f.seq ≠ s.rcv.expectedSeq := by
  simp [rcvWaiting, inOrder]

theorem receiving_iff (e : Role) (b : Datagram) : receiving e s = true ↔ inContext (.decode e b) s := by
  cases e <;> simp [receiving, inContext]

theorem fillContext_iff :
    (inCycle s.snd && !s.snd.doNothing) = true ↔
      s.snd.phase = .cycle ∧ s.snd.sendEot = false ∧ s.snd.doNothing = false := by
  simp [inCycle, and_assoc]

theorem txNewContext_iff :
    (inCycle s.snd && !s.snd.doNothing && !isFull s.snd && !s.snd.srcDone) = true ↔
      s.snd.phase = .cycle ∧ s.snd.sendEot = false ∧ s.snd.doNothing = false ∧ s.snd.outstanding ≠ 7#3 ∧
        s.snd.srcDone = false := by
  simp [inCycle, isFull, and_assoc]

theorem resendContext_iff :
    (inCycle s.snd && s.snd.resend) = true ↔ s.snd.phase = .cycle ∧ s.snd.sendEot = false ∧ s.snd.resend = true := by
  simp [inCycle, and_assoc]

theorem eotSendContext_iff :
    (decide (s.snd.phase = .cycle) && s.snd.sendEot) = true ↔ s.snd.phase = .cycle ∧ s.snd.sendEot = true := by
  simp

theorem resyncContext_iff :
    (inWait s || decide (s.snd.phase = .eotWait)) = true ↔ s.snd.phase = .wait ∨ s.snd.phase = .eotWait := by
  simp [inWait]

/-- Data is refused for its operands alone, as ill formed (R123). -/
theorem not_notSelected_execData (n : Seq) (len : Len) (d : List Byte) : ¬ NotSelected (execData n len d s) := by
  unfold execData
  split
  · exact not_notSelected_outcome _
  · exact nofun

/-- ENCODE is refused for its operand alone, as ill formed (R120). -/
theorem not_notSelected_execEncode (e : Role) (f : Frame) : ¬ NotSelected (execEncode e f s) := by
  unfold execEncode
  split
  · exact not_notSelected_outcome _
  · exact nofun

/-- SND.START is refused for the Source's cursor alone (R282(d)). -/
theorem not_notSelected_execSndStart : ¬ NotSelected (execSndStart s) := by
  unfold execSndStart
  split
  · split <;> exact nofun
  · exact nofun

theorem not_notSelected_execRcvStart : ¬ NotSelected (execRcvStart s) := by
  unfold execRcvStart
  split <;> exact nofun

/-- TXOLD needs an entry to send, beside RESEND's context (R146). -/
theorem notSelected_execTxOld (j : BitVec 3) : NotSelected (execTxOld j s) ↔ ¬ inContext (.txOld j) s := by
  unfold execTxOld
  cases hen : (window s.snd)[j.toNat]? with
  | none =>
    have hend : ¬ j.toNat < (window s.snd).length := (List.getElem?_eq_none_iff.1 hen).not_gt
    exact iff_of_true ⟨_, rfl⟩ fun ⟨_, _, _, h⟩ => hend h
  | some en =>
    obtain ⟨hin, -⟩ := List.getElem?_eq_some_iff.1 hen
    refine notSelected_onlyWhen _ ((resendContext_iff s).trans ?_)
    simp [inContext, hin]
end Contexts

/-- Settles O14: each row's context in the model is the table's. -/
theorem rowsOutsideTheirContextAreRefused : Obligations.RowsOutsideTheirContextAreRefused := by
  intro i s
  cases i with
  | ack n => exact notSelected_iff_of_free (not_notSelected_outcome (encodeOp .receiver (frameAck n) s))
  | eotAck n => exact notSelected_iff_of_free (not_notSelected_outcome (encodeOp .receiver (frameEotAck n) s))
  | eot n => exact notSelected_iff_of_free (not_notSelected_outcome (encodeOp .sender (frameEot n) s))
  | data n len d => exact notSelected_iff_of_free (not_notSelected_execData s n len d)
  | encode e f => exact notSelected_iff_of_free (not_notSelected_execEncode s e f)
  | sndStart => exact notSelected_iff_of_free (not_notSelected_execSndStart s)
  | rcvStart => exact notSelected_iff_of_free (not_notSelected_execRcvStart s)
  | reset e => exact notSelected_iff_of_free nofun
  | ackRx f | sndIgnoreData f | sndIgnoreEotAck f | sndIgnoreEot f | sndEvent a | timeout =>
    exact notSelected_onlyWhen _ (inWait_iff s)
  | ackDiscard f | ackCum f | ackLate f | ackResync f => exact notSelected_onlyWhen _ (inWait_branch_iff s f.seq _)
  | eotAcked f | eotOtherAck f | eotOtherData f | eotOtherEot f | eotEvent a | eotTimeout =>
    exact notSelected_onlyWhen _ (inEotWait_iff s)
  | rcvData f | rcvEot f | rcvIgnoreAck f | rcvIgnoreEotAck f => exact notSelected_onlyWhen _ (rcvInOrder_iff s f)
  | rcvOoo k f => exact notSelected_onlyWhen _ (rcvOutOfOrder_iff s f)
  | rcvEvent a | rcvTimeout => exact notSelected_onlyWhen _ (rcvWaiting_iff s)
  | decode e b => exact notSelected_onlyWhen _ (receiving_iff s e b)
  | sndCycle => exact notSelected_onlyWhen _ decide_eq_true_iff
  | fill => exact notSelected_onlyWhen _ (fillContext_iff s)
  | txNew => exact notSelected_onlyWhen _ (txNewContext_iff s)
  | resend => exact notSelected_onlyWhen _ (resendContext_iff s)
  | txOld j => exact notSelected_execTxOld s j
  | resync n => exact notSelected_onlyWhen _ (resyncContext_iff s)
  | eotSend => exact notSelected_onlyWhen _ (eotSendContext_iff s)

/-! ### An event and the row its frame selects (R98) -/

theorem onlyWhen_of_eq_true {c : Bool} {m : String} {r : Host.Outcome State Fault Refusal} (hc : c = true) :
    onlyWhen c m r = r := if_pos hc

/-- In WAIT, SND's selection on a frame is the row of R98's first column. -/
theorem exec_sndWaitRow (f : Frame) {s : State} (hp : s.snd.phase = .wait) :
    exec (sndWaitRow f) s = (sndFrameBody f s).outcome := by
  have hc : inWait s = true := (inWait_iff s).2 hp
  unfold sndWaitRow sndFrameBody
  cases f.kind <;> exact onlyWhen_of_eq_true hc

/-- In EOTWAIT, SND's selection on a frame is the row of R98's second column. -/
theorem exec_eotWaitRow (f : Frame) {s : State} (hp : s.snd.phase = .eotWait) :
    exec (eotWaitRow f) s = (eotFrameBody f s).outcome := by
  have hc : inEotWait s = true := (inEotWait_iff s).2 hp
  unfold eotWaitRow eotFrameBody
  cases f.kind <;> exact onlyWhen_of_eq_true hc

/-- In WAIT, RCV's selection on a frame is the row of R98's third column, under the number RCV waits for. -/
theorem exec_rcvWaitRow (f : Frame) {s : State} (hp : s.rcv.phase = .wait) :
    exec (rcvWaitRow s.rcv.expectedSeq f) s = (rcvFrameBody f s).outcome := by
  unfold rcvWaitRow rcvFrameBody
  by_cases hn : f.seq = s.rcv.expectedSeq
  · have hc : (rcvWaiting s && inOrder (frameBody f) s) = true := (rcvInOrder_iff s _).2 ⟨hp, hn⟩
    rw [if_pos hn, if_pos hn]
    cases f.kind <;> exact onlyWhen_of_eq_true hc
  · have hc : (rcvWaiting s && !inOrder (frameBody f) s) = true := (rcvOutOfOrder_iff s _).2 ⟨hp, hn⟩
    rw [if_neg hn, if_neg hn]
    exact onlyWhen_of_eq_true hc

/-- A stopped SND is not in WAIT. -/
theorem Stops.snd_phase_ne_wait {s t : State} (h : Stops .sender s t) : t.snd.phase ≠ .wait := by
  rcases h.out with hreset | hfault
  · have hr : t.snd = senderReset := hreset
    rw [hr]
    exact nofun
  · have hf : t.snd.phase = .fault := hfault
    rw [hf]
    exact nofun

/-- SND's selection on a frame goes on in WAIT, and where it ends early SND has left WAIT. -/
theorem sndFrameBody_phase (f : Frame) {s : State} (hp : s.snd.phase = .wait) :
    (sndFrameBody f s).Spec (fun _ t => t.snd.phase = .wait) (fun t => t.snd.phase ≠ .wait) :=
  spec_mono (sndFrameBody_answered f s) (fun _ _ h => Eq.trans h.goes.phase hp) fun _ h => h.snd_phase_ne_wait

/-- SND.EVENT's last line runs exactly where what is before it has gone on, and so where SND is still in WAIT (R170). -/
theorem outcome_then_cycle {r : Res Unit} {t : State}
    (hr : r.Spec (fun _ u => u.snd.phase = .wait) (fun u => u.snd.phase ≠ .wait)) (ht : r.outcome = .next t) :
    (r.bind fun _ u => .ok () (u.setSndPhase .cycle)).outcome =
      .next (if t.snd.phase = .wait then t.setSndPhase .cycle else t) := by
  cases r with
  | ok a u =>
    cases ht
    have hp : t.snd.phase = .wait := hr
    rw [bind_ok, outcome_ok, if_pos hp]
  | stop u =>
    cases ht
    have hp : t.snd.phase ≠ .wait := hr
    rw [bind_stop, outcome_stop, if_neg hp]
  | halt fault => cases ht

section Events
variable {s : State} {b : Datagram} {f : Frame}

/-- SND.EVENT of a legal frame: DECODE, the selection, the last line (R170). -/
theorem exec_sndEvent_buffer (hf : decodeFrame b = .ok f) (hp : s.snd.phase = .wait) :
    exec (.sndEvent (.buffer b)) s =
      ((sndFrameBody f (s.setSide .sender { s.sndSide with decoded := f })).bind
        fun _ u => .ok () (u.setSndPhase .cycle)).outcome := by
  have hrow : exec (.sndEvent (.buffer b)) s = (sndEventBody (.buffer b) s).outcome :=
    onlyWhen_of_eq_true ((inWait_iff s).2 hp)
  rw [hrow, sndEventBody, sndAnswerBody, decodeOp_ok .sender s hf, bind_ok, side_sender]

/-- EOT.EVENT of a legal frame: DECODE, then the selection (R201). -/
theorem exec_eotEvent_buffer (hf : decodeFrame b = .ok f) (hp : s.snd.phase = .eotWait) :
    exec (.eotEvent (.buffer b)) s = (eotFrameBody f (s.setSide .sender { s.sndSide with decoded := f })).outcome := by
  have hrow : exec (.eotEvent (.buffer b)) s = (eotEventBody (.buffer b) s).outcome :=
    onlyWhen_of_eq_true ((inEotWait_iff s).2 hp)
  rw [hrow, eotEventBody, decodeOp_ok .sender s hf, bind_ok, side_sender]

/-- RCV.EVENT of a legal frame: DECODE, then the selection (R221). -/
theorem exec_rcvEvent_buffer (hf : decodeFrame b = .ok f) (hp : s.rcv.phase = .wait) :
    exec (.rcvEvent (.buffer b)) s =
      (rcvFrameBody f (s.setSide .receiver { s.rcvSide with decoded := f })).outcome := by
  have hrow : exec (.rcvEvent (.buffer b)) s = (rcvEventBody (.buffer b) s).outcome :=
    onlyWhen_of_eq_true ((rcvWaiting_iff s).2 hp)
  rw [hrow, rcvEventBody, decodeOp_ok .receiver s hf, bind_ok, side_receiver]
end Events

/-- What a reader's row chooser names is the only row its reading answers. -/
theorem row_of_decodeFrameAs {b : Datagram} {f : Frame} {row : Frame → Instr} {i : Instr} (hf : decodeFrame b = .ok f)
    (hi : decodeFrameAs b row = .ok i) : row f = i :=
  Except.ok.inj ((decodeFrameAs_ok hf row).symm.trans hi)

/-- Settles O15: an event decodes and selects, and the selection is the row of R98 that its reader decodes. -/
theorem eventsPerformTheRowOfTheMap : Obligations.EventsPerformTheRowOfTheMap := by
  intro s b f hf
  refine ⟨fun i t hp hi ht => ?_, fun i hp hi => ?_, fun i hp hi => ?_⟩
  · obtain rfl := row_of_decodeFrameAs hf hi
    rw [exec_sndEvent_buffer hf hp]
    refine outcome_then_cycle (sndFrameBody_phase f ?_) ((exec_sndWaitRow f ?_).symm.trans ht) <;> exact hp
  · obtain rfl := row_of_decodeFrameAs hf hi
    rw [exec_eotEvent_buffer hf hp]
    refine (exec_eotWaitRow f ?_).symm
    exact hp
  · obtain rfl := row_of_decodeFrameAs hf hi
    rw [exec_rcvEvent_buffer hf hp]
    refine (exec_rcvWaitRow f ?_).symm
    exact hp

end Sys2Proof.Machine

/-! PROOFS of the codec family (40_codec.md): the codec round trip (R122), DECODE's tests in their order with their faults
(R121), and what ENCODE and the four constructors leave in the frame buffer (R120, R123, R124). The last two turn on
`encodeOp_fills`, which says once what an ENCODE does to the state. -/

namespace Sys2Proof.Machine

/-! ### Writing back what was read -/

theorem kindCode_kindOfByte {c : Byte} (h : c.toNat ≤ 3) : kindCode (kindOfByte c) = c := by
  unfold kindOfByte
  split_ifs with hack hdata heotAck
  · exact hack.symm
  · exact hdata.symm
  · exact heotAck.symm
  · show 3#8 = c
    bv_omega

/-- A byte that passed the number test keeps its value in 3 bits (R93, R121). -/
theorem seqField_toNat {c : Byte} (h : c.toNat ≤ 7) : (c.setWidth 3).toNat = c.toNat := by bv_omega

/-- A byte that passed the length test keeps its value in 5 bits (R94, R121). -/
theorem lenField_toNat {c : Byte} (h : c.toNat ≤ 30) : (c.setWidth 5).toNat = c.toNat := by bv_omega

/-- A byte that passed the number test is written back as it was read (R93, R121). -/
theorem seqByte_of_seqField {c : Byte} (h : c.toNat ≤ 7) : (c.setWidth 3).setWidth 8 = c :=
  BitVec.eq_of_toNat_eq ((seqByte_toNat _).trans (seqField_toNat h))

/-- A byte that passed the length test is written back as it was read (R94, R121). -/
theorem lenByte_of_lenField {c : Byte} (h : c.toNat ≤ 30) : (c.setWidth 5).setWidth 8 = c :=
  BitVec.eq_of_toNat_eq ((lenByte_toNat _).trans (lenField_toNat h))

/-- ENCODE of what DECODE answers is the first 33 bytes of the buffer (R63, R122). -/
theorem encodeFrame_of_decodeFrame {b : Datagram} {f : Frame} (h : decodeFrame b = .ok f) : encodeFrame f = b.take 33 := by
  obtain ⟨⟨hlength, hkind, hseq, hlen⟩, rfl⟩ := decodeFrame_eq_ok_iff.1 h
  match b, hlength with
  | k :: n :: l :: slot, _ =>
    calc encodeFrame (frameOf (k :: n :: l :: slot))
      _ = kindCode (kindOfByte k) :: (n.setWidth 3).setWidth 8 :: (l.setWidth 5).setWidth 8 :: slot.take 30 := rfl
      _ = k :: n :: l :: slot.take 30 := by
        rw [kindCode_kindOfByte (c := k) hkind, seqByte_of_seqField (c := n) hseq, lenByte_of_lenField (c := l) hlen]

/-- Settles O1: a frame is read back by `decodeFrame_encodeFrame`, a buffer is written back by `encodeFrame_of_decodeFrame`. -/
theorem codecRoundTripIsLossless : Obligations.CodecRoundTripIsLossless :=
  ⟨fun _ hf => decodeFrame_encodeFrame hf,
    fun _ _ hlength h => (encodeFrame_of_decodeFrame h).trans (List.take_of_length_le hlength.le),
    fun _ _ _ h => encodeFrame_of_decodeFrame h⟩

/-! ### DECODE's tests -/

theorem decodeFrame_short {b : Datagram} (h : b.length < 33) : decodeFrame b = .error .short := if_pos h

/-- Whichever field test fails first, its fault is MALFORMED_FIELD (R121, R242). -/
theorem decodeFrame_badField {b : Datagram} (hlength : 33 ≤ b.length)
    (h : 3 < (b.getD 0 0#8).toNat ∨ 7 < (b.getD 1 0#8).toNat ∨ 30 < (b.getD 2 0#8).toNat) :
    ∃ err, decodeFrame b = .error err ∧ frameFault err = .malformedField := by
  unfold decodeFrame
  split_ifs with hshort hkind hseq hlen
  · exact absurd hlength hshort.not_ge
  · exact ⟨.kind, rfl, rfl⟩
  · exact ⟨.seq, rfl, rfl⟩
  · exact ⟨.len, rfl, rfl⟩
  · exact (h.elim hkind fun h => h.elim hseq hlen).elim

/-- DECODE by an engine that receives is the operation itself (R98, R121). -/
theorem exec_decode_of_receiving {e : Role} {s : State} (h : receiving e s = true) (b : Datagram) :
    exec (.decode e b) s = (decodeOp e b s).outcome := by
  show onlyWhen (receiving e s) "DECODE" (decodeOp e b s).outcome = _
  rw [h, onlyWhen_true]

theorem exec_decode_fault {e : Role} {s : State} (h : receiving e s = true) {b : Datagram} {err : FrameError}
    (hb : decodeFrame b = .error err) : exec (.decode e b) s = .next (takeFault e (frameFault err) s) := by
  rw [exec_decode_of_receiving h, decodeOp_error e s hb, raise_outcome]

theorem exec_decode_frame {e : Role} {s : State} (h : receiving e s = true) {b : Datagram} {f : Frame}
    (hb : decodeFrame b = .ok f) : exec (.decode e b) s = .next (s.setSide e { s.side e with decoded := f }) := by
  rw [exec_decode_of_receiving h, decodeOp_ok e s hb, outcome_ok]

/-- Settles O5: the tests by `decodeFrame_short`, `decodeFrame_badField` and `decodeFrame_eq_ok_iff`; the frame of a legal
buffer is `frameOf b`. -/
theorem decodeTestsTheBufferInOrder : Obligations.DecodeTestsTheBufferInOrder := by
  intro e b s hrecv
  refine ⟨fun hshort => exec_decode_fault hrecv (decodeFrame_short hshort), fun hlength hbad => ?_,
    fun hlength hkind hseq hlen => ?_⟩
  · obtain ⟨err, hb, hfault⟩ := decodeFrame_badField hlength hbad
    rw [exec_decode_fault hrecv hb, hfault]
  · have hb : decodeFrame b = .ok (frameOf b) := decodeFrame_eq_ok_iff.2 ⟨⟨hlength, hkind, hseq, hlen⟩, rfl⟩
    exact ⟨frameOf b, decodeFrame_wf hb, kindCode_kindOfByte hkind, seqField_toNat hseq, lenField_toNat hlen, rfl,
      exec_decode_frame hrecv hb⟩

/-! ### ENCODE and the frame buffer -/

/-- A buffer written from offset 0 with 33 bytes holds them, and past them reads as before. -/
theorem fbHolds_memSetAll (m : Memory) {bytes : List Byte} (h : bytes.length = 33) :
    fbHolds (memSetAll m 0 bytes) bytes m := by
  refine ⟨fun a ha => ?_, fun a ha => memGet_memSetAll_outside (.inr (by omega))⟩
  rw [memGet_memSetAll, if_pos (by omega), Nat.sub_zero]

/-- ENCODE of a frame whose slot has 30 bytes answers a next state in which the engine's frame buffer holds the frame's
bytes, and nothing else has changed (R120). -/
theorem encodeOp_fills (e : Role) (f : Frame) (s : State) (hp : f.payload.length = 30) :
    ∃ m, (encodeOp e f s).outcome = .next (s.setSide e { s.side e with fb := m }) ∧
      fbHolds m (encodeFrame f) (s.side e).fb := by
  refine ⟨memSetAll (s.side e).fb 0 (encodeFrame f), ?_, fbHolds_memSetAll _ (by simp [hp])⟩
  rw [encodeOp_eq e f s hp, outcome_ok, encoded]

theorem exec_encode_of_wf {f : Frame} (h : frameWf f = true) (e : Role) (s : State) :
    exec (.encode e f) s = (encodeOp e f s).outcome := if_pos h

theorem exec_encode_of_not_wf {f : Frame} (h : frameWf f = false) (e : Role) (s : State) :
    exec (.encode e f) s = .refused (.illFormed "ENCODE") := if_neg (Bool.eq_false_iff.1 h)

/-- The slot's bytes stand from offset 3 (R91). -/
theorem encodeFrame_getD_payload (f : Frame) (j : Nat) : (encodeFrame f).getD (3 + j) 0#8 = f.payload.getD j 0#8 := by
  rw [Nat.add_comm]
  rfl

/-- Settles O6: `encodeOp_fills`, read offset by offset. -/
theorem encodeFillsTheFrameBuffer : Obligations.EncodeFillsTheFrameBuffer := by
  intro e f s
  refine ⟨fun hf => ?_, fun hf => exec_encode_of_not_wf hf e s⟩
  obtain ⟨m, hnext, hbytes, hpast⟩ := encodeOp_fills e f s ((frameWf_iff f).1 hf).2
  have hpayload : ∀ j, j < 30 → memGet m (3 + j) = f.payload.getD j 0#8 := fun j hj =>
    (hbytes (3 + j) (by omega)).trans (encodeFrame_getD_payload f j)
  exact ⟨m, (exec_encode_of_wf hf e s).trans hnext, hbytes 0 (by decide), hbytes 1 (by decide), hbytes 2 (by decide),
    hpayload, hpast⟩

/-! ### The constructors -/

/-- Data with operands in range is an ENCODE of its frame (R101, R123). -/
theorem exec_data_of_range {len : Len} {d : List Byte} (hlen : len.toNat ≤ 30) (hd : d.length = len.toNat) (n : Seq)
    (s : State) : exec (.data n len d) s = (encodeOp .sender (frameData n len d) s).outcome := if_pos ⟨hlen, hd⟩

/-- Data with an operand out of range is refused (R123, RV6). -/
theorem exec_data_of_not_range {len : Len} {d : List Byte} (h : 30 < len.toNat ∨ d.length ≠ len.toNat) (n : Seq)
    (s : State) : exec (.data n len d) s = .refused (.illFormed "Data") :=
  if_neg fun ⟨hlen, hd⟩ => h.elim hlen.not_gt (absurd hd)

/-- The bytes of Data's frame, its slot padded with zeros (R91, R95, R123). -/
theorem encodeFrame_frameData {len : Len} {d : List Byte} (hd : d.length = len.toNat) (n : Seq) :
    encodeFrame (frameData n len d) = 0x01#8 :: n.setWidth 8 :: len.setWidth 8 :: (d ++ zeros (30 - len.toNat)) :=
  hd ▸ rfl

/-- Settles O7: each constructor is an ENCODE of its frame, so `encodeOp_fills` says what it leaves; the bytes of a control
frame are those of the statement by computation, those of Data by `encodeFrame_frameData`. -/
theorem constructorsFillTheFrameBuffer : Obligations.ConstructorsFillTheFrameBuffer := by
  intro s n
  refine ⟨encodeOp_fills .receiver (frameAck n) s (frameAck_payload_length n),
    encodeOp_fills .receiver (frameEotAck n) s (frameEotAck_payload_length n),
    encodeOp_fills .sender (frameEot n) s (frameEot_payload_length n),
    fun len d hlen hd => ?_, fun len d h => exec_data_of_not_range h n s⟩
  rw [exec_data_of_range hlen hd, ← encodeFrame_frameData hd]
  exact encodeOp_fills .sender (frameData n len d) s (frameData_payload_length n len d (hd.trans_le hlen))

end Sys2Proof.Machine

/-! PROOFS of the sender cycle family (41_sender_cycle.md): SND.START (R140), TXNEW and TXOLD answer by answer (R144, R146),
FILL as its loop and what its rounds send (R143), RESEND (R145), the order of SND.CYCLE (R141), and the numbering (R149).
What FILL and RESEND leave alone is said once, by `Emitted`. -/

namespace Sys2Proof.Machine

/-! ### SND.START -/

/-- Settles O25: the two tests of SND.START, one after the other. -/
theorem sndStartOnlyInIdle : Obligations.SndStartOnlyInIdle := by
  intro s
  refine ⟨fun hp hc => ?_, fun hp => if_neg hp, fun hp hc => ?_⟩
  · exact (if_pos hp).trans (if_pos hc)
  · exact (if_pos hp).trans (if_neg hc)

/-! ### The Source's answers -/

section Answers
variable {s : State} {d : List Byte}

theorem srcNext_chunk (hr : noRst .sender s) (hd : s.src.chunks[s.src.cursor]? = some d) :
    srcNext s = .ok (.chunk d (s.src.flagsLast && decide (s.src.cursor + 1 = s.src.chunks.length)))
      (s.setSrc { s.src with cursor := srcCursorAfter s.src.cursor d }) := by
  rw [srcNext, external_none _ hr]
  simp only [hd]

theorem srcNext_exhausted (hr : noRst .sender s) (hd : s.src.chunks[s.src.cursor]? = none) :
    srcNext s = .ok .exhausted s := by
  rw [srcNext, external_none _ hr]
  simp only [hd]

/-- The fault of a chunk of no bytes, and that of a chunk of more than 30 (R67(c) and (d)). -/
def brokenFault (d : List Byte) : FaultCode := if d.length = 0 then .sourceZero else .sourceProto

theorem faultCode_brokenFault (d : List Byte) : faultCode (brokenFault d) = if d.length = 0 then 3#4 else 8#4 := by
  unfold brokenFault
  split <;> rfl

/-- A chunk of no bytes or of more than 30 fails one of the two length tests of TXNEW and TXOLD; its fault is that test's. -/
theorem raise_of_broken {k : Res Unit} (t : State) (hb : d.length = 0 ∨ 30 < d.length) :
    (if d.length = 0 then raise .sender .sourceZero t
      else if Config.chunkBytes < d.length then raise .sender .sourceProto t else k) =
      raise .sender (brokenFault d) t := by
  unfold brokenFault
  split
  next => rfl
  next h0 => exact if_pos (hb.resolve_left h0)

/-- A chunk of 1 to 30 bytes passes both. -/
theorem goes_on_of_good {k : Res Unit} (t : State) (h1 : 1 ≤ d.length) (h2 : d.length ≤ 30) :
    (if d.length = 0 then raise .sender .sourceZero t
      else if Config.chunkBytes < d.length then raise .sender .sourceProto t else k) = k :=
  (if_neg (Nat.ne_of_gt h1)).trans (if_neg (Nat.not_lt.2 h2))
end Answers

/-! ### TXNEW -/

section TxNew
variable {s : State} {d : List Byte}

/-- TXNEW's row, where the table's context and R144's condition hold. -/
theorem exec_txNew (hp : s.snd.phase = .cycle) (he : s.snd.sendEot = false) (hd : s.snd.doNothing = false)
    (ho : s.snd.outstanding.toNat < 7) (hs : s.snd.srcDone = false) : exec .txNew s = (txNewBody s).outcome :=
  onlyWhen_of_eq_true ((txNewContext_iff s).2 ⟨hp, he, hd, fun h => by simp [h] at ho, hs⟩)

theorem txNewBody_exhausted (hr : noRst .sender s) (hd : s.src.chunks[s.src.cursor]? = none) :
    txNewBody s = .ok () (s.setSnd { s.snd with srcDone := true }) := by
  rw [txNewBody, srcNext_exhausted hr hd, bind_ok]

theorem txNewBody_broken (hr : noRst .sender s) (hd : s.src.chunks[s.src.cursor]? = some d)
    (hb : d.length = 0 ∨ 30 < d.length) :
    txNewBody s =
      raise .sender (brokenFault d) (s.setSrc { s.src with cursor := Config.brokenChunkCursor s.src.cursor d }) := by
  rw [txNewBody, srcNext_chunk hr hd, bind_ok, srcCursorAfter_broken _ hb]
  exact raise_of_broken _ hb

theorem txNewBody_counterOverflow (hr : noRst .sender s) (hd : s.src.chunks[s.src.cursor]? = some d) (h1 : 1 ≤ d.length)
    (h2 : d.length ≤ 30) (hmax : s.snd.sentCount = Config.maxCount) :
    txNewBody s = raise .sender .counterOverflow (s.setSrc { s.src with cursor := s.src.cursor + 1 }) := by
  rw [txNewBody, srcNext_chunk hr hd, bind_ok, srcCursorAfter_good _ h1 h2]
  exact (goes_on_of_good _ h1 h2).trans (if_pos hmax)

/-- The Source's answer to TXNEW says whether this was its last chunk (R67(a)). -/
def nextIsLast (s : State) : Bool := s.src.flagsLast && decide (s.src.cursor + 1 = s.src.chunks.length)

/-- A chunk of 1 to 30 bytes with the counter not full is sent under `nextSeq`, and then the window is written (R144). -/
theorem txNewBody_send (hr : noRst .sender s) (hd : s.src.chunks[s.src.cursor]? = some d) (h1 : 1 ≤ d.length)
    (h2 : d.length ≤ 30) (hmax : s.snd.sentCount ≠ Config.maxCount) :
    txNewBody s =
      (sendFrame .sender (chunkFrame s.snd.nextSeq d) (s.setSrc { s.src with cursor := s.src.cursor + 1 })).bind
        fun _ t => .ok () (t.setSnd (pushWindow t.snd (nextIsLast s))) := by
  rw [txNewBody, srcNext_chunk hr hd, bind_ok, srcCursorAfter_good _ h1 h2]
  exact (goes_on_of_good _ h1 h2).trans (if_neg hmax)

theorem txNewBody_passed (hr : noRst .sender s) (hd : s.src.chunks[s.src.cursor]? = some d) (h1 : 1 ≤ d.length)
    (h2 : d.length ≤ 30) (hmax : s.snd.sentCount ≠ Config.maxCount) (ha : sendOk .sender s) :
    txNewBody s = .ok () (((passed .sender (chunkFrame s.snd.nextSeq d) s).setSrc
      { s.src with cursor := s.src.cursor + 1 }).setSnd (pushWindow s.snd (nextIsLast s))) := by
  rw [txNewBody_send hr hd h1 h2 hmax, sendFrame_passed _ _ _ (chunkFrame_payload_length _ d h2), bind_ok, passed_snd]
  · rfl
  · exact hr
  · exact ha

theorem txNewBody_sendFailed (hr : noRst .sender s) (hd : s.src.chunks[s.src.cursor]? = some d) (h1 : 1 ≤ d.length)
    (h2 : d.length ≤ 30) (hmax : s.snd.sentCount ≠ Config.maxCount) {kept : Bool} {rest : List SendAnswer}
    (ha : s.sndSide.answers = .error kept :: rest) :
    txNewBody s = .stop ((sendFailed .sender (chunkFrame s.snd.nextSeq d) kept rest s).setSrc
      { s.src with cursor := s.src.cursor + 1 }) := by
  rw [txNewBody_send hr hd h1 h2 hmax, sendFrame_failed _ _ _ kept rest (chunkFrame_payload_length _ d h2), bind_stop]
  · rfl
  · exact hr
  · exact ha
end TxNew

/-- Settles O26: TXNEW's row is its body, and the body is known answer by answer. -/
theorem txNewTakesOneChunk : Obligations.TxNewTakesOneChunk := by
  intro s hp he hd ho hs hr
  rw [exec_txNew hp he hd ho hs]
  refine ⟨fun hnone => ?_, fun d hchunk hb => ?_, fun d hchunk h1 h2 hmax => ?_, fun d hchunk h1 h2 hmax =>
    ⟨fun ha => ?_, fun kept rest ha => ?_⟩⟩
  · rw [txNewBody_exhausted hr hnone]
    rfl
  · rw [txNewBody_broken hr hchunk hb, raise_outcome, ← faultCode_brokenFault]
    rfl
  · rw [txNewBody_counterOverflow hr hchunk h1 h2 hmax]
    rfl
  · have hlast : (s.snd.srcDone || nextIsLast s) = nextIsLast s := by rw [hs, Bool.false_or]
    rw [txNewBody_passed hr hchunk h1 h2 hmax ha, pushWindow, hlast]
    rfl
  · rw [txNewBody_sendFailed hr hchunk h1 h2 hmax ha]
    rfl

/-! ### TXOLD -/

section TxOld
variable {s : State} {en : Entry} {d : List Byte}

/-- TXOLD's row on an entry of the window, where the table's context and R146's condition hold. -/
theorem exec_txOld {j : BitVec 3} (hp : s.snd.phase = .cycle) (he : s.snd.sendEot = false) (hs : s.snd.resend = true)
    (hen : (window s.snd)[j.toNat]? = some en) : exec (.txOld j) s = (txOldBody en s).outcome := by
  show execTxOld j s = _
  simp only [execTxOld, hen]
  exact onlyWhen_of_eq_true ((resendContext_iff s).2 ⟨hp, he, hs⟩)

theorem txOldBody_exhausted (hr : noRst .sender s) (hd : s.src.chunks[en.off.toNat]? = none) :
    txOldBody en s = raise .sender .sourceProto (s.setSrc { s.src with cursor := en.off.toNat }) := by
  have hr' : noRst .sender (s.setSrc { s.src with cursor := en.off.toNat }) := hr
  rw [txOldBody, srcSeek_noRst _ hr, bind_ok, srcNext_exhausted hr' hd, bind_ok]

theorem txOldBody_broken (hr : noRst .sender s) (hd : s.src.chunks[en.off.toNat]? = some d)
    (hb : d.length = 0 ∨ 30 < d.length) :
    txOldBody en s =
      raise .sender (brokenFault d) (s.setSrc { s.src with cursor := Config.brokenChunkCursor en.off.toNat d }) := by
  have hr' : noRst .sender (s.setSrc { s.src with cursor := en.off.toNat }) := hr
  rw [txOldBody, srcSeek_noRst _ hr, bind_ok, srcNext_chunk hr' hd, bind_ok, srcCursorAfter_broken _ hb]
  exact raise_of_broken _ hb

/-- A chunk of 1 to 30 bytes is sent under the entry's number, the cursor past it (R146). -/
theorem txOldBody_send (hr : noRst .sender s) (hd : s.src.chunks[en.off.toNat]? = some d) (h1 : 1 ≤ d.length)
    (h2 : d.length ≤ 30) :
    txOldBody en s = sendFrame .sender (chunkFrame en.seq d) (s.setSrc { s.src with cursor := en.off.toNat + 1 }) := by
  have hr' : noRst .sender (s.setSrc { s.src with cursor := en.off.toNat }) := hr
  rw [txOldBody, srcSeek_noRst _ hr, bind_ok, srcNext_chunk hr' hd, bind_ok, srcCursorAfter_good _ h1 h2]
  exact goes_on_of_good _ h1 h2

theorem txOldBody_passed (hr : noRst .sender s) (hd : s.src.chunks[en.off.toNat]? = some d) (h1 : 1 ≤ d.length)
    (h2 : d.length ≤ 30) (ha : sendOk .sender s) :
    txOldBody en s =
      .ok () ((passed .sender (chunkFrame en.seq d) s).setSrc { s.src with cursor := en.off.toNat + 1 }) := by
  rw [txOldBody_send hr hd h1 h2, sendFrame_passed _ _ _ (chunkFrame_payload_length _ d h2)]
  · rfl
  · exact hr
  · exact ha

theorem txOldBody_sendFailed (hr : noRst .sender s) (hd : s.src.chunks[en.off.toNat]? = some d) (h1 : 1 ≤ d.length)
    (h2 : d.length ≤ 30) {kept : Bool} {rest : List SendAnswer} (ha : s.sndSide.answers = .error kept :: rest) :
    txOldBody en s =
      .stop ((sendFailed .sender (chunkFrame en.seq d) kept rest s).setSrc { s.src with cursor := en.off.toNat + 1 }) := by
  rw [txOldBody_send hr hd h1 h2, sendFrame_failed _ _ _ kept rest (chunkFrame_payload_length _ d h2)]
  · rfl
  · exact hr
  · exact ha
end TxOld

/-- Settles O29: TXOLD's row is its body, and the body is known answer by answer. -/
theorem txOldSendsTheEntryAgain : Obligations.TxOldSendsTheEntryAgain := by
  intro s j en hp he hs hen hr
  rw [exec_txOld hp he hs hen]
  refine ⟨fun d hchunk h1 h2 => ⟨fun ha => ?_, fun kept rest ha => ?_⟩, fun d hchunk hb => ?_, fun hnone => ?_⟩
  · rw [txOldBody_passed hr hchunk h1 h2 ha]
    rfl
  · rw [txOldBody_sendFailed hr hchunk h1 h2 ha]
    rfl
  · rw [txOldBody_broken hr hchunk hb, raise_outcome, ← faultCode_brokenFault]
    rfl
  · rw [txOldBody_exhausted hr hnone]
    rfl

/-! ### FILL is its loop -/

/-- What follows an operation matters only where the operation goes on. -/
theorem bind_congr_of_spec {α β : Type} {P : α → State → Prop} {Q : State → Prop} {r : Res α} {k k' : α → State → Res β}
    (h : r.Spec P Q) (hk : ∀ a t, P a t → k a t = k' a t) : r.bind k = r.bind k' := by
  cases r with
  | ok a t => exact hk a t h
  | stop t => rfl
  | halt f => rfl

/-- FILL goes round again (R143). -/
def fillsOn (sn : Sender) : Prop := sn.outstanding.toNat < 7 ∧ sn.srcDone = false

theorem fillLoop_succ_of_fillsOn {s : State} (n : Nat) (h : fillsOn s.snd) :
    fillLoop (n + 1) s = (txNewBody s).bind fun _ t => fillLoop n t := if_pos h

theorem fillLoop_of_not_fillsOn {s : State} (n : Nat) (h : ¬ fillsOn s.snd) : fillLoop n s = .ok () s := by
  cases n with
  | zero => rfl
  | succ n => exact if_neg h

/-- `n` rounds are enough: the window has room for no more, or the Source is exhausted. -/
def enoughRounds (n : Nat) (sn : Sender) : Prop := 7 ≤ n + sn.outstanding.toNat ∨ sn.srcDone = true

/-- A round leaves one round less to do (R144). -/
theorem TookChunk.enoughRounds {s t : State} {n : Nat} (h : TookChunk s t) (hf : fillsOn s.snd)
    (hn : enoughRounds (n + 1) s.snd) : enoughRounds n t.snd := by
  obtain ⟨ho, hs⟩ := hf
  rcases h with h | ⟨_, isLast, h⟩ <;> rw [Machine.enoughRounds, h.snd]
  · exact .inr rfl
  · rcases hn with hn | hn
    · refine .inl ?_
      show 7 ≤ n + (s.snd.outstanding + 1#3).toNat
      rw [outstanding_succ ho]
      omega
    · simp [hs] at hn

/-- One round more than enough changes nothing. -/
theorem fillLoop_succ_of_enough {n : Nat} {s : State} (hn : enoughRounds n s.snd) : fillLoop (n + 1) s = fillLoop n s := by
  induction n generalizing s with
  | zero =>
    have hf : ¬ fillsOn s.snd := fun ⟨ho, hs⟩ => hn.elim (fun h => by omega) fun h => by simp [hs] at h
    rw [fillLoop_of_not_fillsOn _ hf, fillLoop_of_not_fillsOn _ hf]
  | succ n ih =>
    by_cases hf : fillsOn s.snd
    · rw [fillLoop_succ_of_fillsOn _ hf, fillLoop_succ_of_fillsOn _ hf]
      exact bind_congr_of_spec (txNewBody_does s) fun _ t ht => ih (ht.enoughRounds hf hn)
    · rw [fillLoop_of_not_fillsOn _ hf, fillLoop_of_not_fillsOn _ hf]

theorem fillBody_of_fillsOn {s : State} (hf : fillsOn s.snd) : fillBody s = (txNewBody s).bind fun _ t => fillBody t := by
  rw [fillBody, fillLoop_succ_of_fillsOn 6 hf]
  refine bind_congr_of_spec (txNewBody_does s) fun _ t ht => ?_
  exact (fillLoop_succ_of_enough (ht.enoughRounds hf (.inl (Nat.le_add_right 7 _)))).symm

theorem fillBody_of_not_fillsOn {s : State} (hf : ¬ fillsOn s.snd) : fillBody s = .ok () s := fillLoop_of_not_fillsOn _ hf

/-- Settles O27: seven rounds are the loop, because each leaves one round less to do. -/
theorem fillIsItsWhileLoop : Obligations.FillIsItsWhileLoop := by
  intro s
  split
  next hf => exact fillBody_of_fillsOn hf
  next hf => exact fillBody_of_not_fillsOn hf

/-! ### What FILL and RESEND leave alone -/

/-- SND's work has put these datagrams in RCV's bag and, beside SND's registers, has changed nothing else but the Source's
cursor and the frame buffer inside its 33 bytes. -/
structure Emitted (s : State) (frames : List Datagram) (t : State) : Prop where
  bag : t.rcvSide = { s.rcvSide with inbox := s.rcvSide.inbox ++ frames }
  src : t.src = { s.src with cursor := t.src.cursor }
  rcv : t.rcv = s.rcv
  sink : t.sink = s.sink
  adj : t.adj = s.adj
  script : t.script = s.script
  side : t.sndSide = { s.sndSide with fb := t.sndSide.fb }
  fb : ∀ a, 33 ≤ a → memGet t.sndSide.fb a = memGet s.sndSide.fb a

theorem emitted_setSnd (s : State) (x : Sender) : Emitted s [] (s.setSnd x) :=
  ⟨by simp, rfl, rfl, rfl, rfl, rfl, rfl, fun _ _ => rfl⟩

theorem emitted_seek (s : State) (c : Nat) : Emitted s [] (s.setSrc { s.src with cursor := c }) :=
  ⟨by simp, rfl, rfl, rfl, rfl, rfl, rfl, fun _ _ => rfl⟩

theorem emitted_refl (s : State) : Emitted s [] s := emitted_setSnd s s.snd

theorem sendOk_of_sendsOk {e : Role} {s : State} (h : sendsOk e s) : sendOk e s := fun _ => by
  rw [sendsOk] at h
  simp [h]

/-- With no answer planned a send that passes is one that the Channel takes (log 5). -/
theorem passed_of_sendsOk {f : Frame} {s : State} (h : sendsOk .sender s) : passed .sender f s = sent .sender f s := by
  have ha : s.sndSide.answers = [] := h
  refine state_ext ?_ ?_ ?_ ?_ ?_ ?_ ?_ ?_ <;> simp [passed, answered, ha]

theorem emitted_passed {f : Frame} {s : State} (hp : f.payload.length = 30) (h : sendsOk .sender s) :
    Emitted s [encodeFrame f] (passed .sender f s) := by
  rw [passed_of_sendsOk h]
  refine ⟨by simp, by simp, by simp, by simp, by simp, by simp, by simp, fun a ha => ?_⟩
  rw [sent_sender_sndSide]
  exact memGet_memSetAll_outside (.inr (by simpa [hp] using ha))

theorem Emitted.trans {s t u : State} {l l' : List Datagram} (h : Emitted s l t) (h' : Emitted t l' u) :
    Emitted s (l ++ l') u where
  bag := by rw [h'.bag, h.bag, List.append_assoc]
  src := h'.src.trans (by rw [h.src])
  rcv := h'.rcv.trans h.rcv
  sink := h'.sink.trans h.sink
  adj := h'.adj.trans h.adj
  script := h'.script.trans h.script
  side := h'.side.trans (by rw [h.side])
  fb a ha := (h'.fb a ha).trans (h.fb a ha)

section Emitting
variable {s t : State} {l : List Datagram} (h : Emitted s l t)
include h

theorem Emitted.chunks : t.src.chunks = s.src.chunks := by rw [h.src]

theorem Emitted.flagsLast : t.src.flagsLast = s.src.flagsLast := by rw [h.src]

theorem Emitted.chunkAt (k : Nat) : chunkAt t k = chunkAt s k := by rw [Machine.chunkAt, Machine.chunkAt, h.chunks]

theorem Emitted.sourceOk (hs : SourceOk s) : SourceOk t := by rwa [SourceOk, h.chunks]

theorem Emitted.undisturbed (hs : undisturbed .sender s) : undisturbed .sender t :=
  ⟨(congrArg Side.rstAt h.side).trans hs.1, (congrArg Side.answers h.side).trans hs.2⟩
end Emitting

/-- Each chunk of a Source that keeps its contract has 1 to 30 bytes (R66, R67). -/
theorem SourceOk.chunk {s : State} (h : SourceOk s) {k : Nat} (hk : k < s.src.chunks.length) :
    s.src.chunks[k]? = some (chunkAt s k) ∧ 1 ≤ (chunkAt s k).length ∧ (chunkAt s k).length ≤ 30 := by
  have hget : chunkAt s k = s.src.chunks[k] := List.getD_eq_getElem _ _ hk
  rw [hget]
  exact ⟨List.getElem?_eq_getElem hk, h _ (List.getElem_mem hk)⟩

/-! ### FILL sends the next chunks -/

/-- The entries of the next `n` chunks (R144). -/
def nextEntries (sn : Sender) (n : Nat) : List Entry :=
  (List.range n).map fun j => { seq := sn.nextSeq + BitVec.ofNat 3 j, off := sn.sentCount + BitVec.ofNat 32 j }

/-- The datagrams of the next `n` chunks (R144). -/
def nextFrames (s : State) (n : Nat) : List Datagram :=
  (List.range n).map fun j =>
    encodeFrame (chunkFrame (s.snd.nextSeq + BitVec.ofNat 3 j) (chunkAt s (s.src.cursor + j)))

/-- The registers after `n` chunks have been transmitted for the first time. -/
def pushedRegs (n : Nat) (done : Bool) (sn : Sender) : Sender :=
  { sn with
    outstanding := sn.outstanding + BitVec.ofNat 3 n
    nextSeq := sn.nextSeq + BitVec.ofNat 3 n
    sentCount := sn.sentCount + BitVec.ofNat 32 n
    inFlight := sn.inFlight ++ nextEntries sn n
    srcDone := done }

theorem pushedRegs_add (m n : Nat) (done done' : Bool) (sn : Sender) :
    pushedRegs n done' (pushedRegs m done sn) = pushedRegs (m + n) done' sn := by
  simp [pushedRegs, nextEntries, List.range_add, BitVec.ofNat_add, BitVec.add_assoc, Function.comp_def]

/-- With no chunk transmitted only `srcDone` can have changed. -/
theorem pushedRegs_zero (done : Bool) (sn : Sender) : pushedRegs 0 done sn = { sn with srcDone := done } := by
  simp [pushedRegs, nextEntries]

/-- The next `n` chunks have been sent, the registers and the cursor have moved by as many. -/
structure Transmitted (s : State) (n : Nat) (t : State) : Prop extends Emitted s (nextFrames s n) t where
  snd : t.snd = pushedRegs n t.snd.srcDone s.snd
  cursor : t.src.cursor = s.src.cursor + n

theorem transmitted_srcDone (s : State) (done : Bool) : Transmitted s 0 (s.setSnd { s.snd with srcDone := done }) :=
  ⟨emitted_setSnd s _, (pushedRegs_zero done s.snd).symm, rfl⟩

theorem Transmitted.nextSeq {s t : State} {n : Nat} (h : Transmitted s n t) :
    t.snd.nextSeq = s.snd.nextSeq + BitVec.ofNat 3 n := congrArg Sender.nextSeq h.snd

/-- What a chunk's transmission leaves of the registers (R144). -/
theorem Transmitted.frame {s t : State} {n : Nat} (h : Transmitted s n t) :
    t.snd.phase = s.snd.phase ∧ t.snd.base = s.snd.base ∧ t.snd.ackedCount = s.snd.ackedCount ∧
      t.snd.doNothing = s.snd.doNothing ∧ t.snd.resend = s.snd.resend ∧ t.snd.sendEot = s.snd.sendEot ∧
      t.snd.cause = s.snd.cause := by
  rw [h.snd]
  exact ⟨rfl, rfl, rfl, rfl, rfl, rfl, rfl⟩

theorem Transmitted.outstanding {s t : State} {n : Nat} (h : Transmitted s n t) (hn : n ≤ 7 - s.snd.outstanding.toNat) :
    t.snd.outstanding.toNat = s.snd.outstanding.toNat + n := by
  rw [h.snd, pushedRegs, BitVec.toNat_add, BitVec.toNat_ofNat]
  omega

/-- The datagrams of `n` chunks more are numbered on from those before. -/
theorem Transmitted.nextFrames_add {s t : State} {m : Nat} (h : Transmitted s m t) (n : Nat) :
    nextFrames s (m + n) = nextFrames s m ++ nextFrames t n := by
  simp [nextFrames, List.range_add, h.nextSeq, h.cursor, h.chunkAt, BitVec.ofNat_add, BitVec.add_assoc, Nat.add_assoc,
    Function.comp_def]

theorem Transmitted.trans {s t u : State} {m n : Nat} (h : Transmitted s m t) (h' : Transmitted t n u) :
    Transmitted s (m + n) u where
  toEmitted := h.nextFrames_add n ▸ h.toEmitted.trans h'.toEmitted
  snd := h'.snd.trans (by rw [h.snd, pushedRegs_add])
  cursor := h'.cursor.trans (by rw [h.cursor, Nat.add_assoc])

/-- Nothing keeps FILL from sending all that the window has room for and the Source holds. -/
structure Fillable (s : State) : Prop where
  calm : undisturbed .sender s
  source : SourceOk s
  entries : s.snd.outstanding.toNat = s.snd.inFlight.length
  counts : s.snd.sentCount.toNat + (7 - s.snd.outstanding.toNat) < 4294967296

section Filling
variable {s t : State}

/-- TXNEW with a chunk at hand sends it (R144). -/
theorem txNewBody_transmits (h : Fillable s) (hf : fillsOn s.snd) (hc : s.src.cursor < s.src.chunks.length) :
    ∃ t, txNewBody s = .ok () t ∧ Transmitted s 1 t ∧ t.snd.srcDone = nextIsLast s := by
  obtain ⟨hr, ha⟩ := h.calm
  obtain ⟨ho, hs⟩ := hf
  obtain ⟨hd, h1, h2⟩ := h.source.chunk hc
  have hmax : s.snd.sentCount ≠ Config.maxCount := fun hm => by
    have hcounts := h.counts
    have hval : Config.maxCount.toNat = 4294967295 := rfl
    rw [hm] at hcounts
    omega
  have hlen := chunkFrame_payload_length s.snd.nextSeq _ h2
  have hwin : window s.snd = s.snd.inFlight := List.take_of_length_le h.entries.ge
  have hframes : nextFrames s 1 = [encodeFrame (chunkFrame s.snd.nextSeq (chunkAt s s.src.cursor))] := by
    simp [nextFrames]
  refine ⟨_, txNewBody_passed hr hd h1 h2 hmax (sendOk_of_sendsOk ha), ⟨?_, ?_, rfl⟩, by simp [pushWindow, hs]⟩
  · rw [hframes]
    exact ((emitted_passed hlen ha).trans (emitted_seek _ _)).trans (emitted_setSnd _ _)
  · simp [pushWindow, pushedRegs, nextEntries, hwin]

theorem Transmitted.fillable (h : Transmitted s 1 t) (ho : s.snd.outstanding.toNat < 7) (hs : Fillable s) : Fillable t := by
  have hout : t.snd.outstanding.toNat = s.snd.outstanding.toNat + 1 := h.outstanding (by omega)
  have hcount : t.snd.sentCount = s.snd.sentCount + 1#32 := congrArg Sender.sentCount h.snd
  have hflight : t.snd.inFlight = s.snd.inFlight ++ nextEntries s.snd 1 := congrArg Sender.inFlight h.snd
  refine ⟨h.undisturbed hs.calm, h.sourceOk hs.source, ?_, ?_⟩
  · simp [hout, hflight, hs.entries, nextEntries]
  · have := hs.counts
    rw [hout, hcount]
    bv_omega

/-- FILL finds the end of the Source: fewer chunks are left than the window has room for, or as many, the last one flagged. -/
def runsDry (s : State) : Prop :=
  s.src.chunks.length - s.src.cursor < 7 - s.snd.outstanding.toNat ∨
    (s.src.flagsLast = true ∧ s.src.chunks.length - s.src.cursor = 7 - s.snd.outstanding.toNat ∧
      s.src.cursor < s.src.chunks.length)

theorem nextIsLast_iff (s : State) :
    nextIsLast s = true ↔ s.src.flagsLast = true ∧ s.src.cursor + 1 = s.src.chunks.length := by
  simp [nextIsLast]

/-- The rounds after one that has not found the end of the Source send one chunk less. -/
theorem Transmitted.fillCount (h : Transmitted s 1 t) (ho : s.snd.outstanding.toNat < 7)
    (hc : s.src.cursor < s.src.chunks.length) : fillCount s = 1 + fillCount t := by
  have hout := h.outstanding (show 1 ≤ 7 - s.snd.outstanding.toNat by omega)
  simp only [Machine.fillCount, Config.windowSize, h.cursor, h.chunks, hout]
  omega

/-- They find the end exactly where FILL from here does. -/
theorem Transmitted.runsDry_iff (h : Transmitted s 1 t) (ho : s.snd.outstanding.toNat < 7)
    (hc : s.src.cursor < s.src.chunks.length) (hlast : nextIsLast s = false) : runsDry t ↔ runsDry s := by
  have hout := h.outstanding (show 1 ≤ 7 - s.snd.outstanding.toNat by omega)
  have hnot : ¬ (s.src.flagsLast = true ∧ s.src.cursor + 1 = s.src.chunks.length) := fun hl => by
    simp [(nextIsLast_iff s).2 hl] at hlast
  simp only [runsDry, h.cursor, h.chunks, h.flagsLast, hout]
  cases hflag : s.src.flagsLast <;> simp [hflag] at hnot ⊢ <;> omega

/-- FILL, by the room that the window has: it sends as many chunks as it has room for and the Source holds, and finds the end of
the Source where `runsDry` says (R143). -/
theorem fillBody_fills {room : Nat} (hroom : 7 - s.snd.outstanding.toNat = room) (h : Fillable s)
    (hs : s.snd.srcDone = false) :
    ∃ t, fillBody s = .ok () t ∧ Transmitted s (fillCount s) t ∧ (t.snd.srcDone = true ↔ runsDry s) := by
  induction room generalizing s with
  | zero =>
    have hcount : fillCount s = 0 := by simp only [fillCount, Config.windowSize]; omega
    have hdry : ¬ runsDry s := by unfold runsDry; omega
    have hself : s.setSnd { s.snd with srcDone := s.snd.srcDone } = s := rfl
    refine ⟨s, fillBody_of_not_fillsOn fun hf => absurd hf.1 (by omega), ?_, by simp [hs, hdry]⟩
    rw [hcount]
    exact hself ▸ transmitted_srcDone s s.snd.srcDone
  | succ room ih =>
    have ho : s.snd.outstanding.toNat < 7 := by omega
    rw [fillBody_of_fillsOn ⟨ho, hs⟩]
    by_cases hc : s.src.cursor < s.src.chunks.length
    · obtain ⟨t, ht, htrans, hdone⟩ := txNewBody_transmits h ⟨ho, hs⟩ hc
      have hout := htrans.outstanding (show 1 ≤ 7 - s.snd.outstanding.toNat by omega)
      rw [ht, bind_ok]
      cases hlast : nextIsLast s with
      | true =>
        obtain ⟨hflag, hend⟩ := (nextIsLast_iff s).1 hlast
        have hcount : fillCount s = 1 := by simp only [fillCount, Config.windowSize]; omega
        have hdry : runsDry s := by
          by_cases hlt : s.src.chunks.length - s.src.cursor < 7 - s.snd.outstanding.toNat
          · exact .inl hlt
          · exact .inr ⟨hflag, by omega, hc⟩
        rw [hlast] at hdone
        refine ⟨t, fillBody_of_not_fillsOn fun hf => by simp [hf.2] at hdone, hcount ▸ htrans, iff_of_true hdone hdry⟩
      | false =>
        obtain ⟨u, hu, hu', hiff⟩ := ih (by omega) (htrans.fillable ho h) (hdone.trans hlast)
        exact ⟨u, hu, htrans.fillCount ho hc ▸ htrans.trans hu', hiff.trans (htrans.runsDry_iff ho hc hlast)⟩
    · have hnone : s.src.chunks[s.src.cursor]? = none := List.getElem?_eq_none (Nat.not_lt.1 hc)
      have hcount : fillCount s = 0 := by simp only [fillCount]; omega
      have hdry : runsDry s := .inl (by omega)
      rw [txNewBody_exhausted h.calm.1 hnone, bind_ok, fillBody_of_not_fillsOn fun hf => by simp [fillsOn] at hf, hcount]
      exact ⟨_, rfl, transmitted_srcDone s true, iff_of_true rfl hdry⟩
end Filling

/-- FILL's row, where the table's context holds. -/
theorem exec_fill {s : State} (hp : s.snd.phase = .cycle) (he : s.snd.sendEot = false) (hd : s.snd.doNothing = false) :
    exec .fill s = (fillBody s).outcome :=
  onlyWhen_of_eq_true ((fillContext_iff s).2 ⟨hp, he, hd⟩)

/-- Settles O28: `fillBody_fills` says what FILL sends and when it finds the end of the Source, `fillBody_does` that it leaves
nothing to fill. -/
theorem fillKeepsTheWindowFull : Obligations.FillKeepsTheWindowFull := by
  intro s hp he hd hs hcalm hsource hentries hcounts
  obtain ⟨t, ht, hsent, hdry⟩ := fillBody_fills rfl ⟨hcalm, hsource, hentries, by omega⟩ hs
  have hfull : nothingToFill t.snd := by
    have hdoes := fillBody_does s
    rw [ht] at hdoes
    exact hdoes.2
  obtain ⟨hphase, hbase, hacked, hdn, hres, heot, hcause⟩ := hsent.frame
  exact ⟨t, by rw [exec_fill hp he hd, ht, outcome_ok], hsent.outstanding (Nat.min_le_left _ _), hsent.nextSeq,
    congrArg Sender.sentCount hsent.snd, congrArg Sender.inFlight hsent.snd, hsent.bag, hsent.cursor ▸ hsent.src,
    hfull.imp_left (isFull_iff _).1, hdry, hphase.trans hp, hbase, hacked, hdn.trans hd, hres, heot.trans he, hcause,
    hsent.rcv, hsent.sink, hsent.adj, hsent.script, hsent.side, hsent.fb⟩

/-! ### RESEND sends the window again -/

/-- The datagram of an entry of the window (R146). -/
def entryFrame (s : State) (en : Entry) : Datagram := encodeFrame (chunkFrame en.seq (chunkAt s en.off.toNat))

theorem Emitted.entryFrame {s t : State} {l : List Datagram} (h : Emitted s l t) : entryFrame t = entryFrame s := by
  funext en
  rw [Machine.entryFrame, Machine.entryFrame, h.chunkAt]

section Resending
variable {s : State}

theorem txOldBody_emits {en : Entry} (hcalm : undisturbed .sender s) (hsource : SourceOk s)
    (hen : en.off.toNat < s.src.chunks.length) :
    ∃ t, txOldBody en s = .ok () t ∧ Emitted s [entryFrame s en] t ∧ t.snd = s.snd := by
  obtain ⟨hr, ha⟩ := hcalm
  obtain ⟨hd, h1, h2⟩ := hsource.chunk hen
  exact ⟨_, txOldBody_passed hr hd h1 h2 (sendOk_of_sendsOk ha),
    (emitted_passed (chunkFrame_payload_length en.seq _ h2) ha).trans (emitted_seek _ _), by simp⟩

theorem txOldAll_emits (l : List Entry) (hcalm : undisturbed .sender s) (hsource : SourceOk s)
    (hl : ∀ en ∈ l, en.off.toNat < s.src.chunks.length) :
    ∃ t, txOldAll l s = .ok () t ∧ Emitted s (l.map (entryFrame s)) t ∧ t.snd = s.snd := by
  induction l generalizing s with
  | nil => exact ⟨s, rfl, emitted_refl s, rfl⟩
  | cons en rest ih =>
    obtain ⟨hen, hrest⟩ := List.forall_mem_cons.1 hl
    obtain ⟨t, ht, hst, htsnd⟩ := txOldBody_emits hcalm hsource hen
    obtain ⟨u, hu, htu, husnd⟩ := ih (hst.undisturbed hcalm) (hst.sourceOk hsource) (by rwa [hst.chunks])
    rw [hst.entryFrame] at htu
    exact ⟨u, by rw [txOldAll, ht, bind_ok, hu], hst.trans htu, husnd.trans htsnd⟩

/-- RESEND of a window whose chunks the Source holds completes (R145). -/
theorem resendBody_resends (hcalm : undisturbed .sender s) (hsource : SourceOk s)
    (hwin : ∀ en ∈ window s.snd, en.off.toNat < s.src.chunks.length) :
    ∃ t, resendBody s = .ok () t ∧ Emitted s ((window s.snd).map (entryFrame s)) t ∧
      t.snd = { s.snd with resend := false } ∧ t.src.cursor = s.snd.sentCount.toNat := by
  obtain ⟨t, ht, hst, hsnd⟩ := txOldAll_emits _ hcalm hsource hwin
  refine ⟨_, by rw [resendBody, ht, bind_ok, srcSeek_noRst _ (hst.undisturbed hcalm).1, bind_ok], ?_, ?_, ?_⟩
  · simpa using (hst.trans (emitted_seek t _)).trans (emitted_setSnd _ _)
  · simp [hsnd]
  · simp [hsnd]
end Resending

/-- RESEND's row, where the table's context holds. -/
theorem exec_resend {s : State} (hp : s.snd.phase = .cycle) (he : s.snd.sendEot = false) (hs : s.snd.resend = true) :
    exec .resend s = (resendBody s).outcome :=
  onlyWhen_of_eq_true ((resendContext_iff s).2 ⟨hp, he, hs⟩)

/-- Settles O30: `resendBody_resends`, field by field. -/
theorem resendSendsTheWindowInOrder : Obligations.ResendSendsTheWindowInOrder := by
  intro s hp he hs hcalm hsource hwin
  obtain ⟨t, ht, hst, hsnd, hcur⟩ := resendBody_resends hcalm hsource hwin
  exact ⟨t, by rw [exec_resend hp he hs, ht, outcome_ok], hsnd, hcur ▸ hst.src, hst.bag, hst.rcv, hst.sink, hst.adj,
    hst.script, hst.side, hst.fb⟩

/-! ### SND.CYCLE in order -/

/-- What follows an operation in SND.CYCLE runs exactly where the operation has gone on, so where SND is still in CYCLE
(R141). -/
theorem outcome_then_in_cycle {r : Res Unit} {k : Unit → State → Res Unit} {t : State}
    (hr : r.Spec (fun _ u => u.snd.phase = .cycle) (fun u => u.snd.phase ≠ .cycle)) (ht : r.outcome = .next t) :
    (t.snd.phase ≠ .cycle → (r.bind k).outcome = .next t) ∧
      (t.snd.phase = .cycle → r = .ok () t ∧ (r.bind k).outcome = (k () t).outcome) := by
  cases r with
  | ok a u =>
    cases ht
    have hp : t.snd.phase = .cycle := hr
    exact ⟨fun hne => absurd hp hne, fun _ => ⟨rfl, rfl⟩⟩
  | stop u =>
    cases ht
    have hp : t.snd.phase ≠ .cycle := hr
    exact ⟨fun _ => rfl, fun h => absurd h hp⟩
  | halt f => cases ht

theorem Stops.snd_phase_ne_cycle {s t : State} (h : Stops .sender s t) : t.snd.phase ≠ .cycle := by
  have hp : t.snd.phase = .idle ∨ t.snd.phase = .fault :=
    h.out.imp (fun hr => congrArg Sender.phase (show t.snd = senderReset from hr)) id
  rcases hp with hp | hp <;> simp [hp]

section Cycle
variable {s t : State}

theorem exec_sndCycle (hp : s.snd.phase = .cycle) : exec .sndCycle s = (sndCycleBody s).outcome :=
  onlyWhen_of_eq_true (decide_eq_true hp)

theorem exec_eotSend (hp : s.snd.phase = .cycle) (he : s.snd.sendEot = true) :
    exec .eotSend s = (eotSendBody s).outcome :=
  onlyWhen_of_eq_true ((eotSendContext_iff s).2 ⟨hp, he⟩)

theorem sndCycleBody_of_sendEot (he : s.snd.sendEot = true) : sndCycleBody s = eotSendBody s := if_pos he

theorem sndCycleBody_of_not_sendEot (he : s.snd.sendEot = false) :
    sndCycleBody s = (cycleFill s).bind fun _ t => (cycleResend t).bind fun _ u => .ok () (u.setSndPhase .wait) :=
  if_neg (by simp [he])

/-- SND.CYCLE's FILL is FILL's row where R141's condition for it holds, and nothing elsewhere. -/
theorem cycleFill_outcome (hp : s.snd.phase = .cycle) (he : s.snd.sendEot = false) :
    (cycleFill s).outcome =
      if s.snd.doNothing = false ∧ s.snd.srcDone = false ∧ s.snd.outstanding ≠ 7#3 then exec .fill s else .next s := by
  have hfull : isFull s.snd = false ↔ s.snd.outstanding ≠ 7#3 := decide_eq_false_iff_not
  simp only [cycleFill, hfull]
  split
  next hc => rw [exec_fill hp he hc.1]
  next => rfl

/-- SND.CYCLE's RESEND is RESEND's row where it is requested, and nothing elsewhere. -/
theorem cycleResend_outcome (hp : s.snd.phase = .cycle) (he : s.snd.sendEot = false) :
    (cycleResend s).outcome = if s.snd.resend = true then exec .resend s else .next s := by
  unfold cycleResend
  split
  next hr => rw [exec_resend hp he hr]
  next => rfl

theorem cycleFill_phase (hp : s.snd.phase = .cycle) :
    (cycleFill s).Spec (fun _ t => t.snd.phase = .cycle) (fun t => t.snd.phase ≠ .cycle) :=
  spec_mono (cycleFill_does s) (fun _ _ h => Eq.trans h.1.goes.phase hp) fun _ h => h.snd_phase_ne_cycle

theorem cycleResend_phase (hp : s.snd.phase = .cycle) :
    (cycleResend s).Spec (fun _ t => t.snd.phase = .cycle) (fun t => t.snd.phase ≠ .cycle) :=
  spec_mono (cycleResend_does s) (fun _ _ ⟨_, h, _⟩ => (congrArg Sender.phase h.snd).trans hp) fun _ h =>
    h.snd_phase_ne_cycle

theorem cycleFill_sendEot (h : cycleFill s = .ok () t) : t.snd.sendEot = s.snd.sendEot := by
  have hdoes := cycleFill_does s
  rw [h] at hdoes
  exact hdoes.1.sendEot
end Cycle

/-- Settles O31: each part of SND.CYCLE is its row, and the next part runs exactly where the one before has left SND in CYCLE. -/
theorem sndCycleRunsItsPhasesInOrder : Obligations.SndCycleRunsItsPhasesInOrder := by
  intro s hp
  refine ⟨fun he => ?_, fun he t u ht => ?_⟩
  · rw [exec_sndCycle hp, exec_eotSend hp he, sndCycleBody_of_sendEot he]
  rw [exec_sndCycle hp, sndCycleBody_of_not_sendEot he]
  obtain ⟨hleft, hon⟩ := outcome_then_in_cycle (cycleFill_phase hp) ((cycleFill_outcome hp he).trans ht)
  refine ⟨hleft, fun hpt hu => ?_⟩
  obtain ⟨hfill, hrest⟩ := hon hpt
  rw [hrest]
  have het : t.snd.sendEot = false := (cycleFill_sendEot hfill).trans he
  obtain ⟨hleft', hon'⟩ := outcome_then_in_cycle (cycleResend_phase hpt) ((cycleResend_outcome hpt het).trans hu)
  exact ⟨hleft', fun hpu => (hon' hpu).2⟩

/-! ### SND.CYCLE completes -/

/-- What SND.CYCLE leaves of the window's front. -/
structure SameFront (x y : Sender) : Prop where
  base : y.base = x.base
  ackedCount : y.ackedCount = x.ackedCount
  doNothing : y.doNothing = x.doNothing

theorem sameFront_refl (x : Sender) : SameFront x x := ⟨rfl, rfl, rfl⟩

section Completing
variable {s : State}

/-- FILL in SND.CYCLE completes, and requests no retransmission (R141, R143). -/
theorem cycleFill_completes (h : Fillable s) :
    ∃ t, cycleFill s = .ok () t ∧ SameFront s.snd t.snd ∧ t.snd.resend = s.snd.resend := by
  unfold cycleFill
  split
  next hc =>
    obtain ⟨t, ht, hsent, -⟩ := fillBody_fills rfl h hc.2.1
    obtain ⟨-, hbase, hacked, hdn, hres, -⟩ := hsent.frame
    exact ⟨t, ht, ⟨hbase, hacked, hdn⟩, hres⟩
  next => exact ⟨s, rfl, sameFront_refl _, rfl⟩

/-- Where a retransmission is requested there is nothing left to fill (R31, R292). -/
theorem cycleFill_of_resend (h : FlagInv s.snd) (hp : s.snd.phase = .cycle) (hr : s.snd.resend = true) :
    cycleFill s = .ok () s := by
  obtain ⟨-, -, hfull⟩ := h.atResend hp hr
  refine if_neg fun ⟨_, hs, hf⟩ => ?_
  rcases hfull with hfull | hdone
  · simp [hf] at hfull
  · simp [hs] at hdone

theorem cycleResend_of_not_requested (hr : s.snd.resend = false) : cycleResend s = .ok () s := if_neg (by simp [hr])

theorem cycleResend_of_requested (hr : s.snd.resend = true) : cycleResend s = resendBody s := if_pos hr

/-- From a state of a running transfer SND.CYCLE completes: one of FILL and RESEND has nothing to do, the other completes. -/
theorem sndCycleBody_completes (hinv : ProtocolInv s) (hp : s.snd.phase = .cycle) (he : s.snd.sendEot = false)
    (hcalm : undisturbed .sender s) (hsource : SourceOk s)
    (hheld : ∀ en ∈ s.snd.inFlight, en.off.toNat < s.src.chunks.length) (hcount : s.snd.sentCount.toNat + 7 < 4294967296) :
    ∃ t, sndCycleBody s = .ok () t ∧ t.snd.phase = .wait ∧ SameFront s.snd t.snd := by
  have hwin := hinv.link.window
  rw [sndCycleBody_of_not_sendEot he]
  cases hr : s.snd.resend with
  | true =>
    obtain ⟨t, ht, -, hsnd, -⟩ := resendBody_resends hcalm hsource (by rwa [hwin.window_eq])
    refine ⟨t.setSndPhase .wait, ?_, rfl, ?_⟩
    · rw [cycleFill_of_resend hinv.flags hp hr, bind_ok, cycleResend_of_requested hr, ht, bind_ok]
    · rw [setSndPhase_snd, hsnd]
      exact ⟨rfl, rfl, rfl⟩
  | false =>
    obtain ⟨t, ht, hfront, hres⟩ := cycleFill_completes ⟨hcalm, hsource, hwin.count, by omega⟩
    refine ⟨t.setSndPhase .wait, ?_, rfl, hfront.base, hfront.ackedCount, hfront.doNothing⟩
    rw [ht, bind_ok, cycleResend_of_not_requested (hres.trans hr), bind_ok]
end Completing

/-- Settles O32: SND.CYCLE completes by `sndCycleBody_completes`, and where it does, `sndCycleBody_does` says how it leaves the
flags in WAIT and what it leaves of RCV. -/
theorem sndCycleEndsInTheWait : Obligations.SndCycleEndsInTheWait := by
  intro s hinv hp he hcalm hsource hheld hcount
  obtain ⟨t, ht, hwait, hfront⟩ := sndCycleBody_completes hinv hp he hcalm hsource hheld hcount
  have hdoes := sndCycleBody_does s hp
  rw [ht] at hdoes
  obtain ⟨hmoves, horderly⟩ := hdoes
  obtain ⟨hresend, heot, hfill⟩ := (horderly ((protocolInv_iff s).1 hinv).2).flags.atWait hwait
  obtain ⟨hrcv, hsink⟩ := hmoves.work.peerEngine
  exact ⟨t, by rw [exec_sndCycle hp, ht, outcome_ok], hwait, hresend, hfront.base, hfront.ackedCount, hfront.doNothing, heot,
    fun hd => (hfill (hfront.doNothing.trans hd)).imp_left (isFull_iff _).1, hrcv, hsink, hmoves.work.peerSide⟩

/-! ### The numbering -/

/-- The numbering is `k mod 8`, or a RESYNC has just corrected the count `a` under the table `adj` (R149, R177). -/
def Renumbered (adj : Correction) (a : Count) (sn : Sender) : Prop :=
  NumberingInv sn ∨
    (sn.doNothing = true ∧ sn.nextSeq = sn.base ∧ resyncAdj adj a = some sn.sentCount ∧ sn.sentCount = sn.ackedCount)

/-- However the operation comes out, SND's registers are then as `G` says. -/
def Res.Leaves {α : Type} (G : Sender → Prop) (r : Res α) : Prop := r.Spec (fun _ t => G t.snd) (fun t => G t.snd)

/-- A call that writes no register, unless it ends early; and there too it keeps the numbering. -/
def Res.Silent {α : Type} (s : State) (r : Res α) : Prop :=
  r.Spec (fun _ t => t.snd = s.snd ∧ t.adj = s.adj) (fun t => NumberingInv s.snd → NumberingInv t.snd)

section Leaving
variable {α β : Type} {G G' : Sender → Prop} {s : State} {r : Res α} {k : α → State → Res β}

theorem leaves_ok {t : State} (a : α) (h : G t.snd) : (Res.ok a t).Leaves G := h

theorem leaves_raise (c : FaultCode) (h : NumberingInv s.snd) : (raise .sender c s : Res α).Leaves NumberingInv := h

theorem Res.Leaves.mono (h : r.Leaves G) (hG : ∀ x, G x → G' x) : r.Leaves G' :=
  spec_mono h (fun _ _ => hG _) fun _ => hG _

theorem Res.Leaves.renumbered (h : r.Leaves NumberingInv) {adj : Correction} {a : Count} :
    r.Leaves (Renumbered adj a) :=
  h.mono fun _ => .inl

theorem Res.Leaves.bind (h : r.Leaves G) (hk : ∀ a t, G t.snd → (k a t).Leaves G) : (r.bind k).Leaves G :=
  spec_bind h hk

/-- A silent call before an operation, which then starts from the same registers and the same RESYNC_ADJ. -/
theorem Res.Silent.bind (h : r.Silent s) (hs : NumberingInv s.snd) (hG : ∀ x, NumberingInv x → G x)
    (hk : ∀ a t, t.snd = s.snd → t.adj = s.adj → (k a t).Leaves G) : (r.bind k).Leaves G :=
  spec_bind (spec_mono h (fun _ _ ht => ht) fun _ ht => hG _ (ht hs)) fun a t ⟨hsnd, hadj⟩ => hk a t hsnd hadj

/-- A silent call keeps the numbering. -/
theorem Res.Silent.leaves (h : r.Silent s) (hs : NumberingInv s.snd) : r.Leaves NumberingInv :=
  spec_mono h (fun _ t ⟨hsnd, _⟩ => by rwa [hsnd]) fun _ ht => ht hs

theorem row_leaves (h : r.Leaves G) {c : Bool} {m : String} {t : State} (ht : onlyWhen c m r.outcome = .next t) :
    G t.snd :=
  spec_next (G := fun t => G t.snd) h (onlyWhen_eq_next ht).2
end Leaving

theorem numberingInv_reset : NumberingInv senderReset := rfl

/-- One more chunk: number and index grow together, modulo 8 (R144, R149). -/
theorem numberingInv_pushWindow {sn : Sender} (h : NumberingInv sn) (isLast : Bool) :
    NumberingInv (pushWindow sn isLast) := by
  simp only [NumberingInv, sentMod8, pushWindow] at h ⊢
  bv_omega

/-- Entries leave the window at its front; the numbering is about its end (R175). -/
theorem numberingInv_popMany {n : Nat} {sn : Sender} (h : NumberingInv sn) : NumberingInv (popMany n sn) := by
  induction n generalizing sn with
  | zero => exact h
  | succ n ih => exact ih h

theorem numberingInv_timeoutRegs {sn : Sender} (h : NumberingInv sn) : NumberingInv (timeoutRegs sn) := by
  unfold timeoutRegs
  split
  · exact h
  · split <;> exact h

/-! ### The calls write no register -/

section SilentCalls
variable (s : State)

theorem record_silent (ev : Event) : (record .sender ev s).Silent s := by
  refine spec_mono (record_spec .sender ev s) ?_ ?_
  · rintro _ _ ⟨r, rfl⟩
    exact ⟨rfl, rfl⟩
  · rintro _ rfl _
    exact numberingInv_reset

theorem srcNext_silent : (srcNext s).Silent s := by
  refine spec_mono (srcNext_spec s) ?_ ?_
  · rintro _ _ ⟨r, ⟨d, _, _, rfl⟩ | ⟨_, _, rfl⟩⟩ <;> exact ⟨rfl, rfl⟩
  · rintro _ rfl _
    exact numberingInv_reset

theorem srcSeek_silent (i : Nat) : (srcSeek i s).Silent s := by
  refine spec_mono (srcSeek_spec i s) ?_ ?_
  · rintro _ _ ⟨r, rfl⟩
    exact ⟨rfl, rfl⟩
  · rintro _ rfl _
    exact numberingInv_reset

theorem sendFrame_silent {f : Frame} (hp : f.payload.length = 30) : (sendFrame .sender f s).Silent s := by
  refine spec_mono (sendFrame_spec .sender f s hp) ?_ ?_
  · rintro _ _ ⟨r, as, rfl | rfl⟩ <;> exact ⟨rfl, rfl⟩
  · rintro _ (rfl | ⟨r, as, rfl | rfl⟩) h
    · exact numberingInv_reset
    · exact h
    · exact h

theorem decodeOp_silent (b : Datagram) : (decodeOp .sender b s).Silent s := by
  refine spec_mono (decodeOp_spec .sender b s) ?_ ?_
  · rintro f _ ⟨_, rfl⟩
    exact ⟨rfl, rfl⟩
  · rintro _ ⟨err, _, rfl⟩ h
    exact h
end SilentCalls

/-! ### SND's operations and the numbering -/

section Numbering
variable {s : State} (hs : NumberingInv s.snd)
include hs

theorem txNewBody_numbering : (txNewBody s).Leaves NumberingInv := by
  refine (srcNext_silent s).bind hs (fun _ h => h) fun a t ht _ => ?_
  have hnt : NumberingInv t.snd := ht ▸ hs
  cases a with
  | exhausted => exact leaves_ok _ hnt
  | chunk d isLast =>
    dsimp only
    split
    · exact leaves_raise _ hnt
    split
    · exact leaves_raise _ hnt
    next hlen =>
      split
      · exact leaves_raise _ hnt
      · exact ((sendFrame_silent t (chunk_payload_length _ d hlen)).leaves hnt).bind fun _ u hu =>
          leaves_ok _ (numberingInv_pushWindow hu isLast)

theorem fillLoop_numbering (n : Nat) : (fillLoop n s).Leaves NumberingInv := by
  induction n generalizing s with
  | zero => exact leaves_ok _ hs
  | succ n ih =>
    unfold fillLoop
    split
    · exact (txNewBody_numbering hs).bind fun _ _ ht => ih ht
    · exact leaves_ok _ hs

theorem fillBody_numbering : (fillBody s).Leaves NumberingInv := fillLoop_numbering hs _

theorem txOldBody_numbering (en : Entry) : (txOldBody en s).Leaves NumberingInv := by
  refine ((srcSeek_silent s _).leaves hs).bind fun _ t ht => ((srcNext_silent t).leaves ht).bind fun a u hu => ?_
  cases a with
  | exhausted => exact leaves_raise _ hu
  | chunk d isLast =>
    dsimp only
    split
    · exact leaves_raise _ hu
    split
    · exact leaves_raise _ hu
    next hlen => exact (sendFrame_silent u (chunk_payload_length _ d hlen)).leaves hu

theorem txOldAll_numbering (l : List Entry) : (txOldAll l s).Leaves NumberingInv := by
  induction l generalizing s with
  | nil => exact leaves_ok _ hs
  | cons en rest ih => exact (txOldBody_numbering hs en).bind fun _ _ ht => ih ht

theorem resendBody_numbering : (resendBody s).Leaves NumberingInv :=
  (txOldAll_numbering hs _).bind fun _ t ht => ((srcSeek_silent t _).leaves ht).bind fun _ _ hu => leaves_ok _ hu

theorem eotSendBody_numbering : (eotSendBody s).Leaves NumberingInv :=
  ((sendFrame_silent s (frameEot_payload_length _)).leaves hs).bind fun _ _ ht => leaves_ok _ ht

theorem cycleFill_numbering : (cycleFill s).Leaves NumberingInv := by
  unfold cycleFill
  split
  · exact fillBody_numbering hs
  · exact leaves_ok _ hs

theorem cycleResend_numbering : (cycleResend s).Leaves NumberingInv := by
  unfold cycleResend
  split
  · exact resendBody_numbering hs
  · exact leaves_ok _ hs

theorem sndCycleBody_numbering : (sndCycleBody s).Leaves NumberingInv := by
  unfold sndCycleBody
  split
  · exact eotSendBody_numbering hs
  · exact (cycleFill_numbering hs).bind fun _ _ ht => (cycleResend_numbering ht).bind fun _ _ hu => leaves_ok _ hu

theorem timeoutBody_numbering : (timeoutBody s).Leaves NumberingInv := leaves_ok _ (numberingInv_timeoutRegs hs)

theorem ackCumBody_numbering (count : Nat) : (ackCumBody count s).Leaves NumberingInv :=
  leaves_ok _ (numberingInv_popMany hs)

/-- RESYNC renumbers: the one operation that may break `k mod 8` (R149, R177). -/
theorem resyncBody_renumbers (n : Seq) : (resyncBody n s).Leaves (Renumbered s.adj s.snd.ackedCount) := by
  refine spec_mono (resyncBody_spec n s) ?_ ?_
  · rintro _ _ ⟨a, r, ha, rfl⟩
    exact .inr ⟨rfl, rfl, ha, rfl⟩
  · rintro _ (⟨_, rfl⟩ | rfl)
    · exact .inl hs
    · exact .inl numberingInv_reset

theorem ackBody_renumbers (n : Seq) : (ackBody n s).Leaves (Renumbered s.adj s.snd.ackedCount) := by
  unfold ackBody
  split
  · exact leaves_ok _ (.inl hs)
  refine (record_silent s _).bind hs (fun _ => .inl) fun _ t hsnd hadj => ?_
  rw [← hsnd, ← hadj]
  have ht : NumberingInv t.snd := hsnd ▸ hs
  split
  · exact (ackCumBody_numbering ht _).renumbered
  split
  · exact (ackCumBody_numbering ht _).renumbered
  · exact resyncBody_renumbers ht n

theorem sndFrameBody_renumbers (f : Frame) : (sndFrameBody f s).Leaves (Renumbered s.adj s.snd.ackedCount) := by
  unfold sndFrameBody
  cases f.kind with
  | ack => exact ackBody_renumbers hs _
  | data | eotAck | eot => exact leaves_ok _ (.inl hs)

theorem sndAnswerBody_renumbers (a : Answer) : (sndAnswerBody a s).Leaves (Renumbered s.adj s.snd.ackedCount) := by
  cases a with
  | error => exact (leaves_raise _ hs).renumbered
  | timeout => exact (timeoutBody_numbering hs).renumbered
  | buffer b =>
    refine (decodeOp_silent s b).bind hs (fun _ => .inl) fun f t hsnd hadj => ?_
    rw [← hsnd, ← hadj]
    exact sndFrameBody_renumbers (hsnd ▸ hs) f

theorem sndEventBody_renumbers (a : Answer) : (sndEventBody a s).Leaves (Renumbered s.adj s.snd.ackedCount) :=
  (sndAnswerBody_renumbers hs a).bind fun _ _ ht => leaves_ok _ ht

theorem eotAckedBody_numbering (n : Seq) : (eotAckedBody n s).Leaves NumberingInv :=
  ((record_silent s _).leaves hs).bind fun _ _ ht => leaves_ok _ ht

theorem eotOtherBody_renumbers (n : Seq) : (eotOtherBody n s).Leaves (Renumbered s.adj s.snd.ackedCount) :=
  (resyncBody_renumbers hs n).bind fun _ _ ht => leaves_ok _ ht

theorem eotTimeoutBody_numbering : (eotTimeoutBody s).Leaves NumberingInv := leaves_ok _ hs

theorem eotFrameBody_renumbers (f : Frame) : (eotFrameBody f s).Leaves (Renumbered s.adj s.snd.ackedCount) := by
  unfold eotFrameBody
  cases f.kind with
  | eotAck => exact (eotAckedBody_numbering hs _).renumbered
  | ack | data | eot => exact eotOtherBody_renumbers hs _

theorem eotEventBody_renumbers (a : Answer) : (eotEventBody a s).Leaves (Renumbered s.adj s.snd.ackedCount) := by
  cases a with
  | error => exact (leaves_raise _ hs).renumbered
  | timeout => exact (eotTimeoutBody_numbering hs).renumbered
  | buffer b =>
    refine (decodeOp_silent s b).bind hs (fun _ => .inl) fun f t hsnd hadj => ?_
    rw [← hsnd, ← hadj]
    exact eotFrameBody_renumbers (hsnd ▸ hs) f
end Numbering

/-! ### The rows and the step -/

section NumberedRows
variable {s t : State}

/-- ENCODE writes no register (R120). -/
theorem encodeOp_snd {e : Role} {f : Frame} (hp : f.payload.length = 30) (h : (encodeOp e f s).outcome = .next t) :
    t.snd = s.snd := by
  rw [encodeOp_eq e f s hp] at h
  cases h
  exact encoded_snd e f s

theorem execData_snd {n : Seq} {len : Len} {d : List Byte} (h : execData n len d s = .next t) : t.snd = s.snd := by
  unfold execData at h
  split at h
  next hr =>
    obtain ⟨hlen, hd⟩ := hr
    exact encodeOp_snd (frameData_payload_length n len d (hd.trans_le hlen)) h
  next => cases h

theorem execEncode_snd {e : Role} {f : Frame} (h : execEncode e f s = .next t) : t.snd = s.snd := by
  unfold execEncode at h
  split at h
  next hf => exact encodeOp_snd ((frameWf_iff f).1 hf).2 h
  next => cases h

/-- A row of RCV leaves SND's registers (R74). -/
theorem exec_receiver_snd {i : Instr} (he : engineOf i = .receiver) (h : exec i s = .next t) : t.snd = s.snd := by
  have hwork : Work (engineOf i) s t := (exec_ran h).moves.work
  rw [he] at hwork
  exact hwork.peerEngine.1

theorem execSndStart_numbering (h : execSndStart s = .next t) (hs : NumberingInv s.snd) : NumberingInv t.snd := by
  unfold execSndStart at h
  split at h
  · split at h <;> cases h
    exact hs
  · cases h
    exact hs

theorem execTxOld_numbering {j : BitVec 3} (h : execTxOld j s = .next t) (hs : NumberingInv s.snd) :
    NumberingInv t.snd := by
  unfold execTxOld at h
  split at h
  next en _ => exact row_leaves (txOldBody_numbering hs en) h
  next => cases h

theorem renumbered_of_eq {adj : Correction} {a : Count} (h : t.snd = s.snd) (hs : NumberingInv s.snd) :
    Renumbered adj a t.snd := .inl (h ▸ hs)

/-- Every row keeps the numbering, or has resynchronized (R149). -/
theorem exec_renumbers {i : Instr} (h : exec i s = .next t) (hs : NumberingInv s.snd) :
    Renumbered s.adj s.snd.ackedCount t.snd := by
  cases i with
  | ack | eotAck | rcvData | rcvEot | rcvOoo | rcvIgnoreAck | rcvIgnoreEotAck | rcvStart | rcvEvent | rcvTimeout =>
    exact renumbered_of_eq (exec_receiver_snd rfl h) hs
  | data => exact renumbered_of_eq (execData_snd h) hs
  | eot n => exact renumbered_of_eq (encodeOp_snd (frameEot_payload_length n) h) hs
  | encode => exact renumbered_of_eq (execEncode_snd h) hs
  | decode e b =>
    cases e with
    | sender => exact .inl (row_leaves ((decodeOp_silent s b).leaves hs) h)
    | receiver => exact renumbered_of_eq (exec_receiver_snd rfl h) hs
  | reset e =>
    cases e with
    | sender =>
      cases h
      exact .inl numberingInv_reset
    | receiver => exact renumbered_of_eq (exec_receiver_snd rfl h) hs
  | sndStart => exact .inl (execSndStart_numbering h hs)
  | sndCycle => exact .inl (row_leaves (sndCycleBody_numbering hs) h)
  | fill => exact .inl (row_leaves (fillBody_numbering hs) h)
  | txNew => exact .inl (row_leaves (txNewBody_numbering hs) h)
  | resend => exact .inl (row_leaves (resendBody_numbering hs) h)
  | txOld => exact .inl (execTxOld_numbering h hs)
  | eotSend => exact .inl (row_leaves (eotSendBody_numbering hs) h)
  | ackDiscard | sndIgnoreData | sndIgnoreEotAck | sndIgnoreEot =>
    exact .inl (row_leaves (leaves_ok () hs) h)
  | timeout => exact .inl (row_leaves (timeoutBody_numbering hs) h)
  | ackCum | ackLate => exact .inl (row_leaves (ackCumBody_numbering hs _) h)
  | eotTimeout => exact .inl (row_leaves (eotTimeoutBody_numbering hs) h)
  | eotAcked => exact .inl (row_leaves (eotAckedBody_numbering hs _) h)
  | resync | ackResync => exact row_leaves (resyncBody_renumbers hs _) h
  | ackRx => exact row_leaves (ackBody_renumbers hs _) h
  | sndEvent a => exact row_leaves (sndEventBody_renumbers hs a) h
  | eotOtherAck | eotOtherData | eotOtherEot => exact row_leaves (eotOtherBody_renumbers hs _) h
  | eotEvent a => exact row_leaves (eotEventBody_renumbers hs a) h
end NumberedRows

/-- Settles O57: fetching writes no register and not RESYNC_ADJ, and the row it comes to keeps the numbering or resynchronizes. -/
theorem numberingSurvivesAllButResync : Obligations.NumberingSurvivesAllButResync := by
  intro s t hs h
  have hd := fetch_does s
  have hk := fetch_keeps s
  cases hf : fetch s with
  | perform i u =>
    rw [hf] at hd hk
    rw [step_of_perform hf] at h
    have hsnd : u.snd = s.snd := hd.snd
    have hadj : u.adj = s.adj := hk.adj
    rw [← hsnd, ← hadj]
    exact exec_renumbers h (hsnd ▸ hs)
  | still u =>
    rw [hf] at hd
    rw [step_of_still hf] at h
    cases h
    have hsnd : t.snd = s.snd := hd.snd
    exact .inl (hsnd ▸ hs)
  | reject r =>
    rw [step_of_reject hf] at h
    cases h

end Sys2Proof.Machine

/-! PROOFS of the sender events family (42_sender_events.md): TIMEOUT (R171), ACK's selection of its row (R172, R173), what
each of these rows leaves (R174 to R177), the ignored frames (R178), and that an acknowledgement's number leaves the window
(R180). Two closed forms carry them: the scan is a test modulo 8 (`scanWindow_eq`), and the pops are one drop
(`popMany_eq_popped`). -/

namespace Sys2Proof.Machine

/-! ### The scan -/

/-- The entries of a list are numbered from `b` on, modulo 8: what R27(c) says of the window. -/
def NumberedFrom (b : Seq) (l : List Entry) : Prop :=
  ∀ i en, l[i]? = some en → en.seq = b + BitVec.ofNat 3 i

theorem WindowInv.numberedFrom {sn : Sender} (h : WindowInv sn) : NumberedFrom sn.base sn.inFlight := h.seqs

/-- Past its front such a list is numbered from the next number on. -/
theorem numberedFrom_cons {b : Seq} {en : Entry} {rest : List Entry} (h : NumberedFrom b (en :: rest)) :
    en.seq = b ∧ NumberedFrom (b + 1#3) rest := by
  refine ⟨by simpa using h 0 en rfl, fun i x hi => ?_⟩
  rw [h (i + 1) x (by simpa using hi), BitVec.add_assoc, Nat.add_comm i 1, BitVec.ofNat_add]

/-- A number other than `b` is one place nearer to `b + 1`. -/
theorem toNat_sub_succ {n b : Seq} (h : b ≠ n) : (n - b).toNat = (n - (b + 1#3)).toNat + 1 := by
  bv_omega

/-- In a list numbered from `b` on, `n` can stand only at the place `(n - b) mod 8` (R173). -/
theorem scanWindow_eq {n b : Seq} {l : List Entry} (h : NumberedFrom b l) :
    scanWindow n l = if (n - b).toNat < l.length then some ((n - b).toNat + 1) else none := by
  induction l generalizing b with
  | nil => simp [scanWindow]
  | cons en rest ih =>
    obtain ⟨hseq, hrest⟩ := numberedFrom_cons h
    rw [scanWindow, hseq, ih hrest]
    by_cases hn : b = n
    · simp [hn]
    · rw [if_neg hn, toNat_sub_succ hn]
      generalize (n - (b + 1#3)).toNat = d
      by_cases hlt : d < rest.length <;> simp [hlt]

/-- The scan finds a number exactly where an entry carries it (R173). -/
theorem scanWindow_isSome_iff {n : Seq} {l : List Entry} :
    (scanWindow n l).isSome = true ↔ ∃ en ∈ l, en.seq = n := by
  induction l with
  | nil => simp [scanWindow]
  | cons en rest ih =>
    rw [List.exists_mem_cons_iff, ← ih, scanWindow]
    by_cases hn : en.seq = n
    · simp [hn]
    · cases hs : scanWindow n rest <;> simp [hn]

/-- Settles O37: the valid entries are all of `inFlight`, and they are numbered from `base` on. -/
theorem scanIsTheModularTest : Obligations.ScanIsTheModularTest := by
  intro sn n h
  rw [h.window_eq, scanWindow_eq h.numberedFrom, h.count]

theorem scanWindow_inWindow {sn : Sender} {n : Seq} (h : WindowInv sn) (hn : (n - sn.base).toNat < sn.outstanding.toNat) :
    scanWindow n (window sn) = some ((n - sn.base).toNat + 1) :=
  (scanIsTheModularTest sn n h).trans (if_pos hn)

theorem scanWindow_outside {sn : Sender} {n : Seq} (h : WindowInv sn) (hn : ¬ (n - sn.base).toNat < sn.outstanding.toNat) :
    scanWindow n (window sn) = none :=
  (scanIsTheModularTest sn n h).trans (if_neg hn)

theorem inWindow_of_scan {sn : Sender} {n : Seq} (h : WindowInv sn) (hs : (scanWindow n (window sn)).isSome = true) :
    (n - sn.base).toNat < sn.outstanding.toNat := by
  by_contra hn
  simp [scanWindow_outside h hn] at hs

/-! ### The pops -/

/-- The registers with `k` entries popped at once (R175). -/
def popped (k : Nat) (sn : Sender) : Sender :=
  { sn with
    inFlight := sn.inFlight.drop k
    base := sn.base + BitVec.ofNat 3 k
    ackedCount := sn.ackedCount + BitVec.ofNat 32 k
    outstanding := sn.outstanding - BitVec.ofNat 3 k }

theorem popOne_eq_popped {sn : Sender} (h : WindowInv sn) : popOne sn = popped 1 sn := by
  rw [popOne, h.window_eq]
  rfl

theorem popped_popped (j k : Nat) (sn : Sender) : popped k (popped j sn) = popped (j + k) sn := by
  simp [popped, List.drop_drop, BitVec.ofNat_add, BitVec.add_assoc, BitVec.sub_sub]

theorem outstanding_sub {o : BitVec 3} {k : Nat} (h : k ≤ o.toNat) : (o - BitVec.ofNat 3 k).toNat = o.toNat - k := by
  have := o.isLt
  bv_omega

/-- What is left of the window is numbered on from where the popped entries ended (R27, R175). -/
theorem WindowInv.popped {sn : Sender} {k : Nat} (h : WindowInv sn) (hk : k ≤ sn.outstanding.toNat) :
    WindowInv (popped k sn) where
  count := by simp [Machine.popped, outstanding_sub hk, h.count]
  next := by
    have hnext := h.next
    simp only [Machine.popped]
    bv_omega
  seqs i en hi := by
    simp only [Machine.popped, List.getElem?_drop] at hi ⊢
    rw [h.seqs _ en hi, BitVec.ofNat_add, BitVec.add_assoc]

/-- ACK.CUM's repetition is one drop of its count, as long as the window has so many entries (R175). -/
theorem popMany_eq_popped {sn : Sender} {k : Nat} (h : WindowInv sn) (hk : k ≤ sn.outstanding.toNat) :
    popMany k sn = popped k sn := by
  induction k generalizing sn with
  | zero => simp [popMany, popped]
  | succ k ih =>
    have hle : k ≤ (popped 1 sn).outstanding.toNat := by
      have := outstanding_sub (show 1 ≤ sn.outstanding.toNat by omega)
      simp only [popped]
      omega
    rw [popMany, popOne_eq_popped h, ih (h.popped (by omega)) hle, popped_popped, Nat.add_comm]

/-- Popping up to and including `n` leaves `base` at `n + 1` (R179). -/
theorem popped_through (n : Seq) (sn : Sender) :
    popped ((n - sn.base).toNat + 1) sn = { sn with
      inFlight := sn.inFlight.drop ((n - sn.base).toNat + 1)
      base := n + 1#3
      ackedCount := sn.ackedCount + BitVec.ofNat 32 ((n - sn.base).toNat + 1)
      outstanding := sn.outstanding - BitVec.ofNat 3 ((n - sn.base).toNat + 1) } := by
  have hbase : sn.base + BitVec.ofNat 3 ((n - sn.base).toNat + 1) = n + 1#3 := by bv_omega
  rw [popped, hbase]

/-- Popping the whole window leaves it empty (R174). -/
theorem popped_all {sn : Sender} (h : WindowInv sn) :
    popped sn.outstanding.toNat sn = { sn with
      inFlight := []
      base := sn.base + sn.outstanding
      ackedCount := sn.ackedCount + sn.outstanding.setWidth 32
      outstanding := 0#3 } := by
  simp [popped, List.drop_of_length_le h.count.ge]

/-! ### The branches of ACK -/

section Branches
variable {n : Seq} {sn : Sender}

theorem ackBranch_eq_discard_iff : ackBranch n sn = .discard ↔ sn.doNothing = true := by
  unfold ackBranch
  split_ifs <;> simp_all

theorem ackBranch_eq_cum_iff :
    ackBranch n sn = .cum ↔ sn.doNothing = false ∧ (scanWindow n (window sn)).isSome = true := by
  unfold ackBranch
  split_ifs <;> simp_all

theorem ackBranch_eq_late_iff :
    ackBranch n sn = .late ↔ sn.doNothing = false ∧ scanWindow n (window sn) = none ∧ lateTest n sn = true := by
  unfold ackBranch
  split_ifs <;> simp_all [Option.isSome_iff_ne_none]

theorem ackBranch_eq_resync_iff :
    ackBranch n sn = .resync ↔ sn.doNothing = false ∧ scanWindow n (window sn) = none ∧ lateTest n sn = false := by
  unfold ackBranch
  split_ifs <;> simp_all [Option.isSome_iff_ne_none]

theorem lateTest_iff :
    lateTest n sn = true ↔ sn.srcDone = true ∧ sn.outstanding.toNat < 6 ∧ n = sentMod8 sn := by
  simp [lateTest, and_assoc]

theorem eq_sentMod8_iff : n = sentMod8 sn ↔ n.toNat = sn.sentCount.toNat % 8 := by
  simp [sentMod8, ← BitVec.toNat_inj]
end Branches

section AckRows
variable {s : State} {f : Body}

theorem exec_ackRx (hp : s.snd.phase = .wait) : exec (.ackRx f) s = (ackBody f.seq s).outcome :=
  onlyWhen_of_eq_true ((inWait_iff s).2 hp)

theorem exec_ackDiscard (hp : s.snd.phase = .wait) (hd : s.snd.doNothing = true) : exec (.ackDiscard f) s = .next s :=
  onlyWhen_of_eq_true ((inWait_branch_iff s f.seq _).2 ⟨hp, ackBranch_eq_discard_iff.2 hd⟩)

theorem exec_ackCum {c : Nat} (hp : s.snd.phase = .wait) (hd : s.snd.doNothing = false)
    (hc : scanWindow f.seq (window s.snd) = some c) : exec (.ackCum f) s = (ackCumBody c s).outcome := by
  have hb : ackBranch f.seq s.snd = .cum := ackBranch_eq_cum_iff.2 ⟨hd, by rw [hc, Option.isSome_some]⟩
  have hrow : exec (.ackCum f) s = (ackCumBody ((scanWindow f.seq (window s.snd)).getD 0) s).outcome :=
    onlyWhen_of_eq_true ((inWait_branch_iff s f.seq _).2 ⟨hp, hb⟩)
  rw [hrow, hc, Option.getD_some]

theorem exec_ackLate (hp : s.snd.phase = .wait) (hb : ackBranch f.seq s.snd = .late) :
    exec (.ackLate f) s = (ackLateBody s).outcome :=
  onlyWhen_of_eq_true ((inWait_branch_iff s f.seq _).2 ⟨hp, hb⟩)

theorem exec_ackResync (hp : s.snd.phase = .wait) (hb : ackBranch f.seq s.snd = .resync) :
    exec (.ackResync f) s = (resyncBody f.seq s).outcome :=
  onlyWhen_of_eq_true ((inWait_branch_iff s f.seq _).2 ⟨hp, hb⟩)

/-- ACK.CUM answers a next state only in WAIT, with sending not suppressed and a number that the scan finds (R98, R173). -/
theorem context_of_exec_ackCum {t : State} (h : exec (.ackCum f) s = .next t) :
    s.snd.phase = .wait ∧ s.snd.doNothing = false ∧ (scanWindow f.seq (window s.snd)).isSome = true := by
  obtain ⟨hc, -⟩ := onlyWhen_eq_next h
  obtain ⟨hp, hb⟩ := (inWait_branch_iff s f.seq _).1 hc
  exact ⟨hp, ackBranch_eq_cum_iff.1 hb⟩

/-- ACK.CUM of a number in the window, on the registers (R175, R179). -/
theorem exec_ackCum_inWindow (hp : s.snd.phase = .wait) (hd : s.snd.doNothing = false) (hw : WindowInv s.snd)
    (hn : (f.seq - s.snd.base).toNat < s.snd.outstanding.toNat) :
    exec (.ackCum f) s = .next (s.setSnd (popped ((f.seq - s.snd.base).toNat + 1) s.snd)) := by
  rw [exec_ackCum hp hd (scanWindow_inWindow hw hn), ackCumBody, outcome_ok, popMany_eq_popped hw hn]
end AckRows

/-! ### ACK records and selects -/

/-- `s` after `Record(AckRx(n))` of SND (R173). -/
def ackRecorded (n : Seq) (s : State) : State :=
  s.setSide .sender { s.sndSide with log := s.sndSide.log ++ [.ackRx n] }

theorem record_ackRx {s : State} (n : Seq) (hr : noRst .sender s) :
    record .sender (.ackRx n) s = .ok () (ackRecorded n s) :=
  external_none _ hr

@[simp] theorem ackRecorded_snd (n : Seq) (s : State) : (ackRecorded n s).snd = s.snd := rfl

theorem ackBody_of_doNothing {s : State} (n : Seq) (hd : s.snd.doNothing = true) : ackBody n s = .ok () s := if_pos hd

section Selection
variable {s : State} {f : Body} (hp : s.snd.phase = .wait) (hd : s.snd.doNothing = false) (hr : noRst .sender s)
include hp hd hr

/-- The scan finds the number: ACK is ACK.CUM on the recorded state (R173). -/
theorem exec_ackRx_eq_ackCum (hs : (scanWindow f.seq (window s.snd)).isSome = true) :
    exec (.ackRx f) s = exec (.ackCum f) (ackRecorded f.seq s) := by
  obtain ⟨c, hc⟩ := Option.isSome_iff_exists.1 hs
  have hrow : exec (.ackCum f) (ackRecorded f.seq s) = (ackCumBody c (ackRecorded f.seq s)).outcome :=
    exec_ackCum hp hd hc
  rw [hrow, exec_ackRx hp, ackBody, hd, record_ackRx _ hr]
  simp [hc]

/-- The scan finds nothing and the late-frame test holds: ACK is ACK.LATE on the recorded state (R173, R174). -/
theorem exec_ackRx_eq_ackLate (hs : scanWindow f.seq (window s.snd) = none) (hl : lateTest f.seq s.snd = true) :
    exec (.ackRx f) s = exec (.ackLate f) (ackRecorded f.seq s) := by
  have hrow : exec (.ackLate f) (ackRecorded f.seq s) = (ackLateBody (ackRecorded f.seq s)).outcome :=
    exec_ackLate hp (ackBranch_eq_late_iff.2 ⟨hd, hs, hl⟩)
  rw [hrow, exec_ackRx hp, ackBody, hd, record_ackRx _ hr]
  simp [hs, hl]

/-- Neither holds: ACK is ACK.RESYNC on the recorded state (R173, R176). -/
theorem exec_ackRx_eq_ackResync (hs : scanWindow f.seq (window s.snd) = none) (hl : lateTest f.seq s.snd = false) :
    exec (.ackRx f) s = exec (.ackResync f) (ackRecorded f.seq s) := by
  have hrow : exec (.ackResync f) (ackRecorded f.seq s) = (resyncBody f.seq (ackRecorded f.seq s)).outcome :=
    exec_ackResync hp (ackBranch_eq_resync_iff.2 ⟨hd, hs, hl⟩)
  rw [hrow, exec_ackRx hp, ackBody, hd, record_ackRx _ hr]
  simp [hs, hl, ackResyncBody]
end Selection

/-- Settles O38: the scan's count is the distance from `base` to the number, plus one, and that many entries are popped. -/
theorem ackCumPopsUpToTheNumber : Obligations.AckCumPopsUpToTheNumber := by
  intro s f hp hd hw hn
  rw [exec_ackCum_inWindow hp hd hw hn, popped_through]
  rfl

/-- Settles O36: ACK of a number in the window is ACK.CUM on the recorded state. -/
theorem ackInWindowCompletes : Obligations.AckInWindowCompletes := by
  intro s f hp hd hr hw hn
  have hs : (scanWindow f.seq (window s.snd)).isSome = true := by rw [scanWindow_inWindow hw hn, Option.isSome_some]
  rw [exec_ackRx_eq_ackCum hp hd hr hs]
  exact ackCumPopsUpToTheNumber (ackRecorded f.seq s) f hp hd hw hn

/-- Settles O39: the late-frame test selects the row, which pops as many entries as the window has; the test asks for fewer
than 6 outstanding. -/
theorem ackLateEmptiesTheWindow : Obligations.AckLateEmptiesTheWindow := by
  intro s f
  refine ⟨fun hp hd hw hn hsrc ho hlast => ?_, fun ho hb => ?_⟩
  · have hb : ackBranch f.seq s.snd = .late :=
      ackBranch_eq_late_iff.2 ⟨hd, scanWindow_outside hw hn, lateTest_iff.2 ⟨hsrc, ho, hlast⟩⟩
    have hrow : exec (.ackLate f) s = .next (s.setSnd (popMany s.snd.outstanding.toNat s.snd)) := exec_ackLate hp hb
    constructor
    · rw [hrow, popMany_eq_popped hw le_rfl, popped_all hw]
      rfl
    · intro h0
      rw [hrow, h0]
      rfl
  · obtain ⟨-, -, hl⟩ := ackBranch_eq_late_iff.1 hb
    obtain ⟨-, hlt, -⟩ := lateTest_iff.1 hl
    omega

/-- Settles O44: after ACK.CUM `base` is `n + 1`, so that `n` is 7 places from it, and a window has at most 7 entries. -/
theorem replayedAckIsOutOfWindow : Obligations.ReplayedAckIsOutOfWindow := by
  intro s t f hw h
  obtain ⟨hp, hd, hs⟩ := context_of_exec_ackCum h
  have hn := inWindow_of_scan hw hs
  rw [exec_ackCum_inWindow hp hd hw hn] at h
  cases h
  have hout : ¬ (f.seq - (popped ((f.seq - s.snd.base).toNat + 1) s.snd).base).toNat <
      (popped ((f.seq - s.snd.base).toNat + 1) s.snd).outstanding.toNat := by
    have hfar : (f.seq - (f.seq + 1#3)).toNat = 7 := by bv_omega
    rw [popped_through, hfar]
    exact Nat.not_lt.2 (Nat.le_of_lt_succ (BitVec.isLt _))
  have hnone := scanWindow_outside (hw.popped hn) hout
  cases hl : lateTest f.seq (popped ((f.seq - s.snd.base).toNat + 1) s.snd) with
  | true => exact .inl (ackBranch_eq_late_iff.2 ⟨hd, hnone, hl⟩)
  | false => exact .inr (ackBranch_eq_resync_iff.2 ⟨hd, hnone, hl⟩)

/-- Settles O35: under `doNothing` both rows leave the state; else the row is the first of R173 whose test succeeds. -/
theorem ackPerformsTheSelectedRow : Obligations.AckPerformsTheSelectedRow := by
  intro s f hp
  refine ⟨fun hd => ?_, fun hd hr u hu => ?_⟩
  · rw [exec_ackRx hp, ackBody_of_doNothing _ hd, exec_ackDiscard hp hd, outcome_ok]
  · obtain rfl : u = ackRecorded f.seq s := hu
    rw [← scanWindow_isSome_iff, Bool.not_eq_true, Option.isSome_eq_false_iff, Option.isNone_iff_eq_none,
      ← eq_sentMod8_iff, ← lateTest_iff, Bool.not_eq_true]
    exact ⟨exec_ackRx_eq_ackCum hp hd hr, exec_ackRx_eq_ackLate hp hd hr, exec_ackRx_eq_ackResync hp hd hr⟩

/-! ### TIMEOUT -/

/-- TIMEOUT with frames in flight and sending suppressed changes nothing (R171). -/
theorem timeoutRegs_of_doNothing {sn : Sender} (h : sn.outstanding ≠ 0#3) (hd : sn.doNothing = true) :
    timeoutRegs sn = sn := by
  rw [timeoutRegs, if_neg h, if_pos hd]

theorem exec_timeout {s : State} (hp : s.snd.phase = .wait) : exec .timeout s = .next (s.setSnd (timeoutRegs s.snd)) :=
  onlyWhen_of_eq_true ((inWait_iff s).2 hp)

theorem exec_sndEvent_timeout {s : State} (hp : s.snd.phase = .wait) :
    exec (.sndEvent .timeout) s = .next ((s.setSnd (timeoutRegs s.snd)).setSndPhase .cycle) :=
  onlyWhen_of_eq_true ((inWait_iff s).2 hp)

/-- Settles O34: the registers are `timeoutRegs`, case by case. -/
theorem timeoutRequestsWhatIsDue : Obligations.TimeoutRequestsWhatIsDue := by
  intro s hp
  refine ⟨timeoutRegs s.snd, exec_timeout hp, exec_sndEvent_timeout hp, timeoutRegs_of_inFlight,
    timeoutRegs_of_doNothing, fun ho hs => ?_, fun ho hs => ?_⟩
  · simp [timeoutRegs_of_empty ho, hs]
  · simp [timeoutRegs_of_empty ho, hs]

/-! ### What is ignored -/

/-- Settles O40: none of these rows has a body that writes. -/
theorem ignoredFramesChangeNothing : Obligations.IgnoredFramesChangeNothing := by
  intro s f hp
  have hc : inWait s = true := (inWait_iff s).2 hp
  refine ⟨fun hd => ⟨exec_ackDiscard hp hd, ?_⟩, onlyWhen_of_eq_true hc, onlyWhen_of_eq_true hc, onlyWhen_of_eq_true hc⟩
  rw [exec_ackRx hp, ackBody_of_doNothing _ hd, outcome_ok]

/-! ### RESYNC -/

theorem resyncAdj_default {c : Correction} {a : Count} (hc : c = []) (ha : a ≠ 0#32) : resyncAdj c a = some (a - 1#32) := by
  rw [hc, resyncAdj_nil, if_neg ha]

theorem resyncAdj_default_zero {c : Correction} {a : Count} (hc : c = []) (ha : a = 0#32) : resyncAdj c a = none := by
  rw [hc, resyncAdj_nil, if_pos ha]

/-- `s` after RESYNC(n), `a` being the corrected count (R177). -/
def resynced (n : Seq) (a : Count) (s : State) : State :=
  (s.setSnd { resyncRegs n a s.snd with doNothing := true }).setSrc { s.src with cursor := a.toNat }

section ResyncRow
variable {s : State} (n : Seq) (hp : s.snd.phase = .wait ∨ s.snd.phase = .eotWait)
include hp

theorem exec_resync_defined {a : Count} (hr : noRst .sender s) (ha : resyncAdj s.adj s.snd.ackedCount = some a) :
    exec (.resync n) s = .next (resynced n a s) := by
  rw [exec_resync n hp, resyncBody_defined n hr ha]
  rfl

theorem exec_resync_undefined (ha : resyncAdj s.adj s.snd.ackedCount = none) :
    exec (.resync n) s = .next (takeFault .sender .resyncUnderflow s) := by
  rw [exec_resync n hp, resyncBody_undefined n ha, raise_outcome]
end ResyncRow

/-- Settles O41: RESYNC where the correction is defined and where it is not, and each of the two at the default. -/
theorem resyncResetsTheWindow : Obligations.ResyncResetsTheWindow := by
  intro s n hp hr
  refine ⟨fun _ => exec_resync_defined n hp hr, exec_resync_undefined n hp, fun hc ha => ?_, fun hc ha => ?_⟩
  · have hcursor : s.snd.ackedCount.toNat - 1 = (s.snd.ackedCount - 1#32).toNat := by bv_omega
    rw [hcursor]
    exact exec_resync_defined n hp hr (resyncAdj_default hc ha)
  · exact exec_resync_undefined n hp (resyncAdj_default_zero hc ha)

/-- Settles O43: the row is performed on its branch, and what it performs is RESYNC of the frame's number. -/
theorem ackResyncIsResync : Obligations.AckResyncIsResync := by
  intro s f hp hb
  have hrow : exec (.ackResync f) s = exec (.resync f.seq) s := by
    rw [exec_ackResync hp hb, exec_resync f.seq (.inl hp)]
  exact ⟨hrow, fun hr _ ha => hrow.trans (exec_resync_defined f.seq (.inl hp) hr ha), resyncAdj_default⟩

end Sys2Proof.Machine

/-! PROOFS of the handshake family (43_sender_eot.md): DONE is entered only by the handshake (R205), and the rows of it: EOT.SEND
(R200), EOT.ACKED (R202), EOT.OTHER (R203), EOT.TIMEOUT (R204). The first turns on two facts: an engine comes to DONE from one
phase alone (R34, R37), and each row that the context lets it perform there is followed to its end. -/

namespace Sys2Proof.Machine

/-! ### The way into DONE -/

/-- The engine of an instance is in DONE (R34, R37). -/
def inDone (e : Role) (s : State) : Prop :=
  match e with
  | .sender => s.snd.phase = .done
  | .receiver => s.rcv.phase = .done

/-- The one phase from which an engine goes to DONE: EOTWAIT of SND, WAIT of RCV (R34, R37). -/
def awaitsEnd (e : Role) (s : State) : Prop :=
  match e with
  | .sender => s.snd.phase = .eotWait
  | .receiver => s.rcv.phase = .wait

/-- The handshake has ended the engine's transfer: only the phase is written, and the reply or the Eot that ended it is recorded
(R202, R223). -/
def shakenHands (e : Role) (s t : State) : Prop :=
  match e with
  | .sender => t.snd = { s.snd with phase := .done } ∧ ∃ n, t.sndSide.log = s.sndSide.log ++ [.eotAckRx n]
  | .receiver =>
    t.rcv = { s.rcv with phase := .done } ∧ t.rcvSide.log = s.rcvSide.log ++ [.eotRx s.rcv.expectedSeq]

/-- If this brought the engine to DONE, the handshake did. -/
def EndsByHandshake (e : Role) (s t : State) : Prop := inDone e t → shakenHands e s t

theorem not_inDone_of_awaitsEnd {e : Role} {s : State} (h : awaitsEnd e s) : ¬ inDone e s := by
  cases e with
  | sender =>
    have hp : s.snd.phase = .eotWait := h
    simp [inDone, hp]
  | receiver =>
    have hp : s.rcv.phase = .wait := h
    simp [inDone, hp]

theorem samePhase.inDone_iff {e : Role} {s t : State} (h : samePhase e s t) : inDone e t ↔ inDone e s := by
  cases e with
  | sender => exact Eq.congr_left h
  | receiver => exact Eq.congr_left h

theorem sameEngine.samePhase {e : Role} {s t : State} (h : sameEngine e s t) : samePhase e s t := by
  cases e with
  | sender => exact congrArg Sender.phase h.1
  | receiver => exact congrArg Receiver.phase h.1

theorem sndMayMove_to_done {x y : Sender} (h : sndMayMove x y) (hx : x.phase ≠ .done) (hy : y.phase = .done) :
    x.phase = .eotWait := by
  rcases h with rfl | hsame | htable
  · cases hy
  · exact absurd (hsame.symm.trans hy) hx
  · cases hp : x.phase <;> simp [hp, hy] at htable ⊢

theorem rcvMayMove_to_done {x y : Receiver} (h : rcvMayMove x y) (hx : x.phase ≠ .done) (hy : y.phase = .done) :
    x.phase = .wait := by
  rcases h with rfl | hsame | htable
  · cases hy
  · exact absurd (hsame.symm.trans hy) hx
  · cases hp : x.phase <;> simp [hp, hy] at htable ⊢

/-- An engine's work that comes to DONE began where the tables of R34 and R37 let it. -/
theorem Moves.awaitsEnd {e : Role} {s t : State} (h : Moves e s t) (hs : ¬ inDone e s) (ht : inDone e t) :
    awaitsEnd e s := by
  cases e with
  | sender => exact sndMayMove_to_done h.move hs ht
  | receiver => exact rcvMayMove_to_done h.move hs ht

theorem Stops.not_inDone {e : Role} {s t : State} (h : Stops e s t) : ¬ inDone e t := by
  cases e with
  | sender =>
    rcases h.out with hr | hf
    · have ht : t.snd = senderReset := hr
      simp [inDone, ht, senderReset]
    · have ht : t.snd.phase = .fault := hf
      simp [inDone, ht]
  | receiver =>
    rcases h.out with hr | hf
    · have ht : t.rcv = receiverReset := hr
      simp [inDone, ht, receiverReset]
    · have ht : t.rcv.phase = .fault := hf
      simp [inDone, ht]

theorem Stops.endsByHandshake {e : Role} {s t : State} (h : Stops e s t) : EndsByHandshake e s t :=
  fun ht => absurd ht h.not_inDone

/-- Work that goes on in the phase before DONE has not come to DONE. -/
theorem Goes.endsByHandshake {e : Role} {s t : State} (h : Goes e s t) (hs : awaitsEnd e s) : EndsByHandshake e s t :=
  fun ht => absurd (h.phase.inDone_iff.1 ht) (not_inDone_of_awaitsEnd hs)

/-- DECODE's result is no part of what the handshake is about (log 4). -/
theorem endsByHandshake_decoded (e : Role) (f : Frame) (s t : State) :
    EndsByHandshake e (s.setSide e { s.side e with decoded := f }) t ↔ EndsByHandshake e s t := by
  cases e <;> exact Iff.rfl

theorem awaitsEnd_decoded (e : Role) (f : Frame) (s : State) :
    awaitsEnd e (s.setSide e { s.side e with decoded := f }) ↔ awaitsEnd e s := by
  cases e <;> exact Iff.rfl

/-- A second reading of one operation adds what it says of the way on. -/
theorem spec_also {α : Type} {P P' : α → State → Prop} {Q Q' : State → Prop} {r : Res α} (h : r.Spec P Q)
    (h' : r.Spec P' Q') : r.Spec (fun a t => P a t ∧ P' a t) Q := by
  cases r with
  | ok a t => exact ⟨h, h'⟩
  | stop t => exact h
  | halt f => exact h

/-- `Record` adds its event to the log and does nothing else that a rule reads (R78). -/
theorem record_adds (e : Role) (ev : Event) (s : State) :
    (record e ev s).Spec (fun _ t => Quiet e s t ∧ (t.side e).log = (s.side e).log ++ [ev]) (Stops e s) := by
  have hlog : (record e ev s).Spec (fun _ t => (t.side e).log = (s.side e).log ++ [ev]) (fun _ => True) := by
    refine spec_mono (record_spec e ev s) ?_ fun _ _ => trivial
    rintro _ _ ⟨r, rfl⟩
    simp
  exact spec_also (record_does e ev s) hlog

/-- A send does not touch the log (R69). -/
theorem sendFrame_keepsLog (e : Role) {f : Frame} (s : State) (hp : f.payload.length = 30) :
    (sendFrame e f s).Spec (fun _ t => Quiet e s t ∧ (t.side e).log = (s.side e).log) (Stops e s) := by
  have hlog : (sendFrame e f s).Spec (fun _ t => (t.side e).log = (s.side e).log) (fun _ => True) := by
    refine spec_mono (sendFrame_spec e f s hp) ?_ fun _ _ => trivial
    rintro _ _ ⟨r, as, rfl | rfl⟩ <;> simp [deposit, decided]
  exact spec_also (sendFrame_does e s hp) hlog

/-! ### The operations performed there -/

/-- However the operation comes out, it has brought its engine to DONE only by the handshake. -/
def Res.ByHandshake {α : Type} (e : Role) (s : State) (r : Res α) : Prop :=
  r.Spec (fun _ t => EndsByHandshake e s t) (Stops e s)

theorem byHandshake_of_goes {α : Type} {e : Role} {s : State} {P : α → State → Prop} {r : Res α} (hs : awaitsEnd e s)
    (h : r.Spec P (Stops e s)) (hg : ∀ a t, P a t → Goes e s t) : r.ByHandshake e s :=
  spec_mono h (fun a t ha => (hg a t ha).endsByHandshake hs) fun _ ht => ht

/-- A row that answers a next state has come to DONE only as its operation does. -/
theorem row_endsByHandshake {α : Type} {e : Role} {s t : State} {r : Res α} (hr : r.ByHandshake e s) {c : Bool}
    {m : String} (h : onlyWhen c m r.outcome = .next t) : EndsByHandshake e s t :=
  spec_next (spec_mono hr (fun _ _ ht => ht) fun _ ht => ht.endsByHandshake) (onlyWhen_eq_next h).2

/-- DECODE, and then an operation selected by the frame (R201, R221). -/
theorem decoded_byHandshake {e : Role} {s : State} {k : Frame → State → Res Unit} (b : Datagram) (hs : awaitsEnd e s)
    (hk : ∀ f t, awaitsEnd e t → (k f t).ByHandshake e t) : ((decodeOp e b s).bind k).ByHandshake e s := by
  refine spec_then (spec_also (decodeOp_does e b s) (decodeOp_spec e b s)) (fun _ _ h => h.1.goes) ?_
  rintro f _ ⟨-, -, rfl⟩
  exact spec_mono (hk f _ ((awaitsEnd_decoded e f s).2 hs)) (fun _ t => (endsByHandshake_decoded e f s t).1) fun _ h => h

section SenderInEotWait
variable {s : State}

/-- EOT.ACKED: one EotAckRx, then the phase (R202). -/
theorem eotAckedBody_byHandshake (n : Seq) : (eotAckedBody n s).ByHandshake .sender s := by
  refine spec_bind (record_adds .sender (.eotAckRx n) s) fun _ t ⟨hq, hlog⟩ _ => ?_
  have hsnd : t.snd = s.snd := hq.snd
  exact ⟨by rw [setSndPhase_snd, hsnd], n, hlog⟩

/-- EOT.OTHER ends in CYCLE (R203). -/
theorem eotOtherBody_byHandshake (n : Seq) : (eotOtherBody n s).ByHandshake .sender s :=
  spec_bind (resyncBody_does n s) fun _ _ _ => nofun

/-- EOT.TIMEOUT ends in CYCLE (R204). -/
theorem eotTimeoutBody_byHandshake : (eotTimeoutBody s).ByHandshake .sender s :=
  (spec_ok _ _).2 nofun

theorem eotFrameBody_byHandshake (f : Frame) : (eotFrameBody f s).ByHandshake .sender s := by
  unfold eotFrameBody
  cases f.kind with
  | eotAck => exact eotAckedBody_byHandshake _
  | ack | data | eot => exact eotOtherBody_byHandshake _

theorem eotEventBody_byHandshake (a : Answer) (hs : awaitsEnd .sender s) : (eotEventBody a s).ByHandshake .sender s := by
  cases a with
  | error => exact raise_stops _ s
  | timeout => exact eotTimeoutBody_byHandshake
  | buffer b => exact decoded_byHandshake b hs fun f _ _ => eotFrameBody_byHandshake f
end SenderInEotWait

section ReceiverInWait
variable {s : State}

/-- RCV.DATA advances `expectedSeq` and stays in WAIT (R222). -/
theorem rcvDataBody_byHandshake (f : Body) (hs : awaitsEnd .receiver s) : (rcvDataBody f s).ByHandshake .receiver s := by
  refine byHandshake_of_goes (P := fun _ t => Goes .receiver s t) hs ?_ fun _ _ h => h
  refine spec_then (sinkAppend_does _ s) (fun _ _ h => h.goes) fun _ t ht => ?_
  refine spec_then (record_does .receiver _ t) (fun _ _ h => h.goes) fun _ u hu => ?_
  refine spec_then (sendFrame_does .receiver u (frameAck_payload_length _)) (fun _ _ h => h.goes) fun _ v hv => ?_
  have hsv : Goes .receiver s v := ((ht.trans hu.toCalled).trans hv.toCalled).goes
  exact hsv.trans ⟨work_setRcv v _, rfl, fun h => ⟨h.cause, h.code⟩⟩

/-- RCV.EOT of the number RCV waits for: one EotRx, the reply, then the phase (R223). -/
theorem rcvEotBody_byHandshake {f : Body} (hn : f.seq = s.rcv.expectedSeq) :
    (rcvEotBody f s).ByHandshake .receiver s := by
  refine spec_then (record_adds .receiver (.eotRx f.seq) s) (fun _ _ h => h.1.goes) fun _ t ⟨ht, hlog⟩ => ?_
  refine spec_bind (sendFrame_keepsLog .receiver t (frameEotAck_payload_length _)) fun _ u ⟨hu, hkept⟩ _ => ?_
  have hrcv : u.rcv = s.rcv := hu.rcv.trans ht.rcv
  have hlog' : u.rcvSide.log = s.rcvSide.log ++ [.eotRx f.seq] := hkept.trans hlog
  exact ⟨by rw [setRcvPhase_rcv, hrcv], by rw [setRcvPhase_rcvSide, hlog', hn]⟩

theorem rcvOooBody_byHandshake (hs : awaitsEnd .receiver s) : (rcvOooBody s).ByHandshake .receiver s :=
  byHandshake_of_goes hs (sendFrame_does .receiver s (frameAck_payload_length _)) fun _ _ h => h.goes

/-- RCV.IGNORE and RCV.TIMEOUT do nothing (R225, R226). -/
theorem idle_byHandshake (hs : awaitsEnd .receiver s) : (Res.ok () s).ByHandshake .receiver s :=
  (Goes.refl .receiver s).endsByHandshake hs

theorem rcvFrameBody_byHandshake (f : Frame) (hs : awaitsEnd .receiver s) : (rcvFrameBody f s).ByHandshake .receiver s := by
  unfold rcvFrameBody
  split
  next hn =>
    cases f.kind with
    | data => exact rcvDataBody_byHandshake _ hs
    | eot => exact rcvEotBody_byHandshake hn
    | ack | eotAck => exact idle_byHandshake hs
  next => exact rcvOooBody_byHandshake hs

theorem rcvEventBody_byHandshake (a : Answer) (hs : awaitsEnd .receiver s) : (rcvEventBody a s).ByHandshake .receiver s := by
  cases a with
  | error => exact raise_stops _ s
  | timeout => exact idle_byHandshake hs
  | buffer b => exact decoded_byHandshake b hs fun f _ ht => rcvFrameBody_byHandshake f ht
end ReceiverInWait

/-! ### The rows performed there -/

/-- A row that answers a next state was performed in its context (R98, R99). -/
theorem inContext_of_exec {i : Instr} {s t : State} (h : exec i s = .next t) : inContext i s := by
  by_contra hc
  obtain ⟨m, hm⟩ := (rowsOutsideTheirContextAreRefused i s).2 hc
  rw [h] at hm
  cases hm

section Rows
variable {s t : State}

theorem encodeOp_goes {e : Role} {f : Frame} (hp : f.payload.length = 30) (h : (encodeOp e f s).outcome = .next t) :
    Goes e s t := by
  rw [encodeOp_eq e f s hp] at h
  cases h
  exact (quiet_encoded e s hp).goes

theorem execEncode_goes {e : Role} {f : Frame} (h : execEncode e f s = .next t) : Goes e s t := by
  unfold execEncode at h
  split at h
  next hf => exact encodeOp_goes ((frameWf_iff f).1 hf).2 h
  next => cases h

/-- RCV.START outside IDLE does nothing (R220). -/
theorem execRcvStart_of_started (h : s.rcv.phase ≠ .idle) : execRcvStart s = .next s := if_neg h

/-- Every row that its engine can be about to perform in the phase before DONE: none ends the transfer but by the handshake. -/
theorem exec_endsByHandshake {i : Instr} (h : exec i s = .next t) (hs : awaitsEnd (engineOf i) s) :
    EndsByHandshake (engineOf i) s t := by
  have hc := inContext_of_exec h
  cases i with
  | ack n => exact (encodeOp_goes (frameAck_payload_length n) h).endsByHandshake hs
  | eotAck n => exact (encodeOp_goes (frameEotAck_payload_length n) h).endsByHandshake hs
  | eot n => exact (encodeOp_goes (frameEot_payload_length n) h).endsByHandshake hs
  | encode e f => exact (execEncode_goes h).endsByHandshake hs
  | data n len d =>
    intro ht
    have hd : s.snd.phase = .done := execData_snd h ▸ ht
    exact absurd hd (not_inDone_of_awaitsEnd hs)
  | decode e b =>
    exact row_endsByHandshake (byHandshake_of_goes hs (decodeOp_does e b s) fun _ _ h => h.goes) h
  | reset e =>
    cases h
    exact (stops_reset e s).endsByHandshake
  | sndStart =>
    have hne : s.snd.phase ≠ .idle := fun hi => by cases hi.symm.trans hs
    cases h.symm.trans ((sndStartOnlyInIdle s).2.1 hne)
    exact (Goes.refl .sender s).endsByHandshake hs
  | rcvStart =>
    have hne : s.rcv.phase ≠ .idle := fun hi => by cases hi.symm.trans hs
    cases h.symm.trans (execRcvStart_of_started hne)
    exact (Goes.refl .receiver s).endsByHandshake hs
  | resync n =>
    exact row_endsByHandshake (byHandshake_of_goes hs (resyncBody_answered n s) fun _ _ h => h.goes) h
  | eotAcked f => exact row_endsByHandshake (eotAckedBody_byHandshake f.seq) h
  | eotOtherAck f | eotOtherData f | eotOtherEot f => exact row_endsByHandshake (eotOtherBody_byHandshake f.seq) h
  | eotEvent a => exact row_endsByHandshake (eotEventBody_byHandshake a hs) h
  | eotTimeout => exact row_endsByHandshake eotTimeoutBody_byHandshake h
  | rcvData f => exact row_endsByHandshake (rcvDataBody_byHandshake f hs) h
  | rcvEot f => exact row_endsByHandshake (rcvEotBody_byHandshake hc.2) h
  | rcvOoo k f => exact row_endsByHandshake (rcvOooBody_byHandshake hs) h
  | rcvIgnoreAck f | rcvIgnoreEotAck f | rcvTimeout => exact row_endsByHandshake (idle_byHandshake hs) h
  | rcvEvent a => exact row_endsByHandshake (rcvEventBody_byHandshake a hs) h
  | ackRx | sndIgnoreData | sndIgnoreEotAck | sndIgnoreEot | sndEvent | timeout | sndCycle =>
    exact absurd (hc.symm.trans hs) nofun
  | ackDiscard | ackCum | ackLate | ackResync | fill | txNew | resend | txOld | eotSend =>
    exact absurd (hc.1.symm.trans hs) nofun
end Rows

/-- A row that brings an engine to DONE found it in the phase before and ended its transfer by the handshake. -/
theorem exec_into_done {i : Instr} {s t : State} (h : exec i s = .next t) {e : Role} (hs : ¬ inDone e s)
    (ht : inDone e t) : awaitsEnd e s ∧ shakenHands e s t := by
  have hmoves : Moves (engineOf i) s t := (exec_ran h).moves
  rcases eq_or_eq_peer (engineOf i) e with rfl | rfl
  · have hp := hmoves.awaitsEnd hs ht
    exact ⟨hp, exec_endsByHandshake h hp ht⟩
  · exact absurd (hmoves.work.peerEngine.samePhase.inDone_iff.1 ht) hs

/-! ### The step -/

/-- A step is a move taken from the script and then a row, or no row. -/
theorem step_fetches {s t : State} (h : step s = .next t) : ∃ u, Fetches s u ∧ (t = u ∨ ∃ i, exec i u = .next t) := by
  have hd := fetch_does s
  cases hf : fetch s with
  | perform i u =>
    rw [hf] at hd
    exact ⟨u, hd, .inr ⟨i, (step_of_perform hf).symm.trans h⟩⟩
  | still u =>
    rw [hf] at hd
    rw [step_of_still hf] at h
    cases h
    exact ⟨t, hd, .inl rfl⟩
  | reject r =>
    rw [step_of_reject hf] at h
    cases h

theorem Fetches.inDone_iff {s u : State} (h : Fetches s u) (e : Role) : inDone e u ↔ inDone e s := by
  cases e <;> simp [inDone, h.snd, h.rcv]

theorem Fetches.awaitsEnd_iff {s u : State} (h : Fetches s u) (e : Role) : awaitsEnd e u ↔ awaitsEnd e s := by
  cases e <;> simp [awaitsEnd, h.snd, h.rcv]

/-- Fetching writes no register and no log, of which alone the handshake speaks. -/
theorem Fetches.shakenHands {e : Role} {s u t : State} (hf : Fetches s u) (h : shakenHands e u t) : shakenHands e s t := by
  cases e with
  | sender =>
    obtain ⟨hregs, n, hlog⟩ := h
    exact ⟨by rw [hregs, hf.snd], n, hlog.trans (congrArg (· ++ _) (hf.side .sender).log)⟩
  | receiver =>
    obtain ⟨hregs, hlog⟩ := h
    refine ⟨by rw [hregs, hf.rcv], ?_⟩
    rw [← hf.rcv]
    exact hlog.trans (congrArg (· ++ _) (hf.side .receiver).log)

/-- The same of a whole step: fetching brings no engine to DONE. -/
theorem step_into_done {s t : State} (h : step s = .next t) {e : Role} (hs : ¬ inDone e s) (ht : inDone e t) :
    awaitsEnd e s ∧ shakenHands e s t := by
  obtain ⟨u, hfetch, rfl | ⟨i, hi⟩⟩ := step_fetches h
  · exact absurd ((hfetch.inDone_iff e).1 ht) hs
  · have hu : ¬ inDone e u := fun hd => hs ((hfetch.inDone_iff e).1 hd)
    obtain ⟨hp, hshaken⟩ := exec_into_done hi hu ht
    exact ⟨(hfetch.awaitsEnd_iff e).1 hp, hfetch.shakenHands hshaken⟩

/-- Settles O24: `step_into_done` for either engine. -/
theorem transferEndsOnlyByTheHandshake : Obligations.TransferEndsOnlyByTheHandshake :=
  fun _ _ h => ⟨step_into_done (e := .sender) h, step_into_done (e := .receiver) h⟩

/-! ### EOT.SEND -/

theorem eotSendBody_passed {s : State} (hr : noRst .sender s) (ha : sendOk .sender s) :
    eotSendBody s = .ok () ((passed .sender (frameEot s.snd.base) s).setSndPhase .eotWait) := by
  rw [eotSendBody, sendFrame_passed _ _ _ (frameEot_payload_length _) hr ha, bind_ok]

theorem eotSendBody_sendFailed {s : State} (hr : noRst .sender s) {kept : Bool} {rest : List SendAnswer}
    (ha : s.sndSide.answers = .error kept :: rest) :
    eotSendBody s = .stop (sendFailed .sender (frameEot s.snd.base) kept rest s) := by
  rw [eotSendBody, sendFrame_failed _ _ _ kept rest (frameEot_payload_length _) hr ha, bind_stop]

/-- With nothing outstanding no entry is in flight and the next number is `base` (R27). -/
theorem WindowInv.of_nothing_outstanding {sn : Sender} (h : WindowInv sn) (ho : sn.outstanding = 0#3) :
    sn.inFlight = [] ∧ sn.base = sn.nextSeq := by
  have hcount := h.count
  have hnext := h.next
  rw [ho] at hcount hnext
  exact ⟨List.eq_nil_of_length_eq_zero hcount.symm, by rw [hnext, BitVec.add_zero]⟩

/-- Settles O33: the row is one send and the phase; a requested handshake has an empty window. -/
theorem eotSendSendsEotOfBase : Obligations.EotSendSendsEotOfBase := by
  intro s hp he
  rw [exec_eotSend hp he]
  refine ⟨fun hr ha => ?_, fun hr kept rest ha => ?_, fun hinv => ?_⟩
  · rw [eotSendBody_passed hr ha, outcome_ok, State.setSndPhase, passed_snd]
    rfl
  · rw [eotSendBody_sendFailed hr ha, outcome_stop]
    rfl
  · obtain ⟨ho, -, -, -⟩ := hinv.flags.atSendEot hp he
    exact ⟨ho, hinv.link.window.of_nothing_outstanding ho⟩

/-! ### EOT.EVENT and its rows -/

/-- Settles O45: EOT.ACKED is one `Record`, whatever the number, and the phase. -/
theorem eotAckedEndsTheTransfer : Obligations.EotAckedEndsTheTransfer := by
  intro s f hp hr
  have hrow : exec (.eotAcked f) s = (eotAckedBody f.seq s).outcome := onlyWhen_of_eq_true ((inEotWait_iff s).2 hp)
  rw [hrow, eotAckedBody, record, external_none _ hr]
  rfl

/-- EOT.OTHER is one operation for its three kinds (R203). -/
theorem exec_eotOther {s : State} {f : Body} {i : Instr} (hi : i = .eotOtherAck f ∨ i = .eotOtherData f ∨ i = .eotOtherEot f)
    (hp : s.snd.phase = .eotWait) : exec i s = (eotOtherBody f.seq s).outcome := by
  have hc : inEotWait s = true := (inEotWait_iff s).2 hp
  rcases hi with rfl | rfl | rfl <;> exact onlyWhen_of_eq_true hc

/-- Settles O46: RESYNC of the number and then two flags, or RESYNC's fault before them. -/
theorem eotOtherResynchronizes : Obligations.EotOtherResynchronizes := by
  intro s f i hi hp hr
  rw [exec_eotOther hi hp, eotOtherBody]
  refine ⟨fun a ha => ?_, fun hnone => ?_, fun hdefault => by rw [hdefault, resyncAdj_nil]⟩
  · rw [resyncBody_defined f.seq hr ha]
    rfl
  · rw [resyncBody_undefined f.seq hnone, raise_bind, raise_outcome]
    rfl

/-- In CYCLE, SND's own move is SND.CYCLE (R34). -/
theorem step_run_of_cycle {s : State} (rest : List Move) (hp : s.snd.phase = .cycle) :
    step (s.setScript (.run :: rest)) = exec .sndCycle (s.setScript rest) :=
  step_of_perform_move rfl (if_pos hp)

/-- Settles O47: the row writes the phase alone, so the request that FlagInv has standing in EOTWAIT makes the next SND.CYCLE
EOT.SEND (R141). -/
theorem eotTimeoutReturnsToTheCycle : Obligations.EotTimeoutReturnsToTheCycle := by
  rintro s hp _ rfl
  have hc : inEotWait s = true := (inEotWait_iff s).2 hp
  refine ⟨onlyWhen_of_eq_true hc, onlyWhen_of_eq_true hc, fun hinv => ?_⟩
  obtain ⟨-, -, -, heot, -⟩ := hinv.flags.atEotWait hp
  refine ⟨heot, fun rest => (step_run_of_cycle rest rfl).trans ?_⟩
  exact (sndCycleRunsItsPhasesInOrder _ rfl).1 heot

end Sys2Proof.Machine

/-! PROOFS of the receiver family (44_receiver.md): what moves `expectedSeq` and the Sink (R228), and the rows of RCV: RCV.START
(R220), RCV.DATA (R222), RCV.EOT (R223), RCV.OOO (R224), RCV.IGNORE and RCV.TIMEOUT (R225, R226). The first turns on one relation,
`TakesFrom`: an operation of RCV accepts no frame, or one of the Data frames it was given. -/

namespace Sys2Proof.Machine

/-! ### What RCV has taken -/

/-- `expectedSeq` stands, unless an rst has put RCV at its reset state (R228, R280). -/
def seqStands (s t : State) : Prop :=
  t.rcv.expectedSeq = s.rcv.expectedSeq ∨ t.rcv = receiverReset

/-- No frame has been accepted: nothing is appended and `expectedSeq` stands. -/
structure NoneTaken (s t : State) : Prop where
  sink : t.sink = s.sink
  seq : seqStands s t

/-- The frame RCV waited for has been accepted: its data is appended, and `expectedSeq` stands, its reply having failed or an rst
having come, or has advanced past the recorded number (R222, R244, R280). -/
structure Accepts (f : Body) (s t : State) : Prop where
  phase : s.rcv.phase = .wait
  order : f.seq = s.rcv.expectedSeq
  sink : t.sink = s.sink ++ f.payload.take f.len.toNat
  seq : seqStands s t ∨
    t.rcv.expectedSeq = s.rcv.expectedSeq + 1#3 ∧ t.rcvSide.log = s.rcvSide.log ++ [.dataRx f.seq]

/-- RCV has accepted no frame, or one of these. -/
def TakesFrom (C : Body → Prop) (s t : State) : Prop :=
  NoneTaken s t ∨ ∃ f, C f ∧ Accepts f s t

/-- All that a frame's acceptance is about is as it was: RCV's registers, the Sink and RCV's log. -/
structure RcvUntouched (s t : State) : Prop where
  rcv : t.rcv = s.rcv
  sink : t.sink = s.sink
  log : t.rcvSide.log = s.rcvSide.log

theorem noneTaken_of_expectedSeq {s t : State} (hsink : t.sink = s.sink)
    (hseq : t.rcv.expectedSeq = s.rcv.expectedSeq) : NoneTaken s t :=
  ⟨hsink, .inl hseq⟩

theorem seqStands_congr {s u t : State} (h : u.rcv = s.rcv) : seqStands u t ↔ seqStands s t := by
  rw [seqStands, seqStands, h]

/-- A call that left RCV's registers and the Sink alone, and then nothing taken. -/
theorem NoneTaken.after {s u t : State} (hrcv : u.rcv = s.rcv) (hsink : u.sink = s.sink) (h : NoneTaken u t) :
    NoneTaken s t :=
  ⟨h.sink.trans hsink, (seqStands_congr hrcv).1 h.seq⟩

/-- Once its data is appended the frame is accepted, also where nothing further is done (R222, R244, R280). -/
theorem NoneTaken.accepts {f : Body} {s u t : State} (hp : s.rcv.phase = .wait) (hn : f.seq = s.rcv.expectedSeq)
    (hrcv : u.rcv = s.rcv) (hsink : u.sink = s.sink ++ f.payload.take f.len.toNat) (h : NoneTaken u t) : Accepts f s t where
  phase := hp
  order := hn
  sink := h.sink.trans hsink
  seq := .inl ((seqStands_congr hrcv).1 h.seq)

theorem RcvUntouched.noneTaken {s t : State} (h : RcvUntouched s t) : NoneTaken s t :=
  noneTaken_of_expectedSeq h.sink (congrArg Receiver.expectedSeq h.rcv)

theorem RcvUntouched.refl (s : State) : RcvUntouched s s := ⟨rfl, rfl, rfl⟩

/-- A fault leaves `expectedSeq` (R252). -/
theorem RcvUntouched.fault {s u : State} (hu : RcvUntouched s u) (c : FaultCode) : NoneTaken s (takeFault .receiver c u) :=
  .after hu.rcv hu.sink (noneTaken_of_expectedSeq rfl rfl)

theorem RcvUntouched.reset {s u : State} (hu : RcvUntouched s u) : NoneTaken s (resetEngine .receiver u) :=
  .after hu.rcv hu.sink ⟨rfl, .inr rfl⟩

theorem RcvUntouched.accepts_trans {f : Body} {s u t : State} (hu : RcvUntouched s u) (h : Accepts f u t) :
    Accepts f s t where
  phase := hu.rcv ▸ h.phase
  order := hu.rcv ▸ h.order
  sink := hu.sink ▸ h.sink
  seq := by simpa only [seqStands_congr hu.rcv, hu.rcv, hu.log] using h.seq

theorem RcvUntouched.takesFrom_trans {C D : Body → Prop} {s u t : State} (hu : RcvUntouched s u)
    (hC : ∀ f, C f → D f) (h : TakesFrom C u t) : TakesFrom D s t := by
  rcases h with hnone | ⟨f, hf, hacc⟩
  · exact .inl (hnone.after hu.rcv hu.sink)
  · exact .inr ⟨f, hC f hf, hu.accepts_trans hacc⟩

/-! ### The external calls of RCV and the CODEC -/

section Calls
variable (s : State)

theorem sendFrame_takesNone {f : Frame} (hp : f.payload.length = 30) :
    (sendFrame .receiver f s).Spec (fun _ t => RcvUntouched s t) (NoneTaken s) := by
  have hdec : ∀ r as, RcvUntouched s (decided .receiver r as (encoded .receiver f s)) := fun _ _ => ⟨rfl, rfl, rfl⟩
  have hdep : ∀ r as, RcvUntouched s (deposit .receiver (encodeFrame f) (decided .receiver r as (encoded .receiver f s))) :=
    fun _ _ => ⟨rfl, rfl, rfl⟩
  refine spec_mono (sendFrame_spec .receiver f s hp) ?_ ?_
  · rintro _ _ ⟨r, as, rfl | rfl⟩
    · exact hdep r as
    · exact hdec r as
  · rintro _ (rfl | ⟨r, as, rfl | rfl⟩)
    · exact RcvUntouched.reset ⟨rfl, rfl, rfl⟩
    · exact (hdep r as).fault _
    · exact (hdec r as).fault _

theorem record_takesNone (ev : Event) :
    (record .receiver ev s).Spec
      (fun _ t => t.rcv = s.rcv ∧ t.sink = s.sink ∧ t.rcvSide.log = s.rcvSide.log ++ [ev]) (NoneTaken s) := by
  refine spec_mono (record_spec .receiver ev s) ?_ ?_
  · rintro _ _ ⟨r, rfl⟩
    exact ⟨rfl, rfl, rfl⟩
  · rintro _ rfl
    exact (RcvUntouched.refl s).reset

theorem sinkAppend_appends (d : List Byte) :
    (sinkAppend d s).Spec
      (fun _ t => t.rcv = s.rcv ∧ t.sink = s.sink ++ d ∧ t.rcvSide.log = s.rcvSide.log) (NoneTaken s) := by
  refine spec_mono (sinkAppend_spec d s) ?_ ?_
  · rintro _ _ ⟨r, rfl⟩
    exact ⟨rfl, rfl, rfl⟩
  · rintro _ rfl
    exact (RcvUntouched.refl s).reset

theorem decodeOp_takesNone (b : Datagram) :
    (decodeOp .receiver b s).Spec (fun g t => decodeFrame b = .ok g ∧ RcvUntouched s t) (NoneTaken s) := by
  refine spec_mono (decodeOp_spec .receiver b s) ?_ ?_
  · rintro g _ ⟨hg, rfl⟩
    exact ⟨hg, rfl, rfl, rfl⟩
  · rintro _ ⟨err, _, rfl⟩
    exact (RcvUntouched.refl s).fault _

theorem encodeOp_takesNone (e : Role) {f : Frame} {t : State} (hp : f.payload.length = 30)
    (h : (encodeOp e f s).outcome = .next t) : NoneTaken s t := by
  rw [encodeOp_eq e f s hp] at h
  cases h
  exact noneTaken_of_expectedSeq (encoded_sink e f s) (congrArg Receiver.expectedSeq (encoded_rcv e f s))
end Calls

/-! ### The operations of RCV -/

/-- However the operation comes out, RCV has accepted no frame, or one of these. -/
def Res.TakesFrom {α : Type} (C : Body → Prop) (s : State) (r : Res α) : Prop :=
  r.Spec (fun _ t => Machine.TakesFrom C s t) (Machine.TakesFrom C s)

/-- An operation that accepts no frame. -/
theorem takesFrom_of_none {α : Type} {C : Body → Prop} {s : State} {r : Res α}
    (h : r.Spec (fun _ t => NoneTaken s t) (NoneTaken s)) : r.TakesFrom C s :=
  spec_mono h (fun _ _ ht => .inl ht) fun _ ht => .inl ht

section Receiving
variable {C : Body → Prop} {s : State}

/-- RCV.IGNORE and RCV.TIMEOUT do nothing (R225, R226). -/
theorem idle_takesFrom : (Res.ok () s).TakesFrom C s :=
  .inl (RcvUntouched.refl s).noneTaken

theorem rcvOooBody_takesFrom : (rcvOooBody s).TakesFrom C s :=
  takesFrom_of_none (spec_mono (sendFrame_takesNone s (frameAck_payload_length _)) (fun _ _ h => h.noneTaken) fun _ h => h)

/-- RCV.EOT writes the phase and freezes `expectedSeq` (R223). -/
theorem rcvEotBody_takesFrom (f : Body) : (rcvEotBody f s).TakesFrom C s := by
  refine takesFrom_of_none (spec_bind (record_takesNone s _) fun _ t ⟨hrcv, hsink, _⟩ => ?_)
  have hnone : ∀ {u}, NoneTaken t u → NoneTaken s u := .after hrcv hsink
  refine spec_bind (spec_mono (sendFrame_takesNone t (frameEotAck_payload_length _)) (fun _ _ h => h) fun _ => hnone) ?_
  intro _ u hu
  have hseq : u.rcv.expectedSeq = t.rcv.expectedSeq := congrArg Receiver.expectedSeq hu.rcv
  exact hnone (noneTaken_of_expectedSeq hu.sink hseq)

/-- RCV.DATA of the frame it waits for: before the append an rst leaves all as it was, after it the frame is accepted (R222). -/
theorem rcvDataBody_takesFrom {f : Body} (hf : C f) (hp : s.rcv.phase = .wait) (hn : f.seq = s.rcv.expectedSeq) :
    (rcvDataBody f s).TakesFrom C s := by
  refine spec_bind (spec_mono (sinkAppend_appends s _) (fun _ _ h => h) fun _ h => .inl h) fun _ t ⟨hrcv, hsink, hlog⟩ => ?_
  have haccept : ∀ u, NoneTaken t u → Machine.TakesFrom C s u := fun _ h => .inr ⟨f, hf, h.accepts hp hn hrcv hsink⟩
  refine spec_bind (spec_mono (record_takesNone t _) (fun _ _ h => h) haccept) fun _ u ⟨hrcv', hsink', hlog'⟩ => ?_
  have haccept' : ∀ v, NoneTaken u v → Machine.TakesFrom C s v := fun v h => haccept v (h.after hrcv' hsink')
  refine spec_bind (spec_mono (sendFrame_takesNone u (frameAck_payload_length _)) (fun _ _ h => h) haccept') ?_
  intro _ v hv
  refine .inr ⟨f, hf, hp, hn, hv.sink.trans (hsink'.trans hsink), .inr ⟨?_, ?_⟩⟩
  · rw [setRcv_rcv, hv.rcv, hrcv', hrcv]
  · rw [setRcv_rcvSide, hv.log, hlog', hlog]

theorem rcvFrameBody_takesFrom {g : Frame} (hg : g.kind = .data → C (frameBody g)) (hp : s.rcv.phase = .wait) :
    (rcvFrameBody g s).TakesFrom C s := by
  unfold rcvFrameBody
  split
  next hn =>
    split
    next hk => exact rcvDataBody_takesFrom (hg hk) hp hn
    next => exact rcvEotBody_takesFrom _
    next => exact idle_takesFrom
    next => exact idle_takesFrom
  next => exact rcvOooBody_takesFrom
end Receiving

/-! ### The rows -/

/-- The row carries this Data frame: RCV.DATA of it, or RCV.EVENT of a buffer that DECODE reads as it (R221). -/
def carriesData (i : Instr) (f : Body) : Prop :=
  i = .rcvData f ∨
    ∃ b g, i = .rcvEvent (.buffer b) ∧ decodeFrame b = .ok g ∧ g.kind = .data ∧ f = frameBody g

section Rows
variable {s t : State}

theorem row_takesFrom {α : Type} {C : Body → Prop} {r : Res α} (hr : r.TakesFrom C s) {c : Bool} {m : String}
    (h : onlyWhen c m r.outcome = .next t) : TakesFrom C s t :=
  spec_next hr (onlyWhen_eq_next h).2

theorem rcvEventBody_takesFrom (a : Answer) (hp : s.rcv.phase = .wait) :
    (rcvEventBody a s).TakesFrom (carriesData (.rcvEvent a)) s := by
  cases a with
  | error => exact .inl ((RcvUntouched.refl s).fault _)
  | timeout => exact idle_takesFrom
  | buffer b =>
    refine spec_bind (spec_mono (decodeOp_takesNone s b) (fun _ _ h => h) fun _ h => .inl h) fun g u ⟨hg, hu⟩ => ?_
    have hbody : (rcvFrameBody g u).TakesFrom (carriesData (.rcvEvent (.buffer b))) u :=
      rcvFrameBody_takesFrom (fun hk => .inr ⟨b, g, rfl, hg, hk, rfl⟩) (hu.rcv ▸ hp)
    exact spec_mono hbody (fun _ _ => hu.takesFrom_trans fun _ h => h) fun _ => hu.takesFrom_trans fun _ h => h

/-- A row of SND leaves RCV's registers and the Sink (R74). -/
theorem exec_sender_takesNone {i : Instr} (he : engineOf i = .sender) (h : exec i s = .next t) : NoneTaken s t := by
  obtain ⟨hrcv, hsink, -⟩ := (enginesShareNoState i s t h).1 he
  exact noneTaken_of_expectedSeq hsink (congrArg Receiver.expectedSeq hrcv)

theorem execEncode_takesNone {e : Role} {f : Frame} (h : execEncode e f s = .next t) : NoneTaken s t := by
  unfold execEncode at h
  split at h
  next hf => exact encodeOp_takesNone s e ((frameWf_iff f).1 hf).2 h
  next => cases h

theorem execRcvStart_takesNone (h : execRcvStart s = .next t) : NoneTaken s t := by
  unfold execRcvStart at h
  split at h <;> cases h <;> exact noneTaken_of_expectedSeq rfl rfl

/-- Every row accepts no frame, or a Data frame that it carries (R228). -/
theorem exec_takesFrom {i : Instr} (h : exec i s = .next t) : TakesFrom (carriesData i) s t := by
  have hc := inContext_of_exec h
  cases i with
  | rcvData f =>
    obtain ⟨hp, hn⟩ := hc
    exact row_takesFrom (rcvDataBody_takesFrom (.inl rfl) hp hn) h
  | rcvEvent a => exact row_takesFrom (rcvEventBody_takesFrom a hc) h
  | rcvEot f => exact row_takesFrom (rcvEotBody_takesFrom f) h
  | rcvOoo => exact row_takesFrom rcvOooBody_takesFrom h
  | rcvIgnoreAck | rcvIgnoreEotAck | rcvTimeout => exact row_takesFrom idle_takesFrom h
  | rcvStart => exact .inl (execRcvStart_takesNone h)
  | ack n => exact .inl (encodeOp_takesNone s .receiver (frameAck_payload_length n) h)
  | eotAck n => exact .inl (encodeOp_takesNone s .receiver (frameEotAck_payload_length n) h)
  | encode => exact .inl (execEncode_takesNone h)
  | decode e b =>
    cases e with
    | sender => exact .inl (exec_sender_takesNone rfl h)
    | receiver =>
      exact row_takesFrom (takesFrom_of_none (spec_mono (decodeOp_takesNone s b) (fun _ _ h => h.2.noneTaken) fun _ h => h)) h
  | reset e =>
    cases e with
    | sender => exact .inl (exec_sender_takesNone rfl h)
    | receiver =>
      cases h
      exact .inl ((RcvUntouched.refl s).reset)
  | data | eot | ackRx | ackDiscard | ackCum | ackLate | ackResync | sndIgnoreData | sndIgnoreEotAck | sndIgnoreEot | eotAcked
  | eotOtherAck | eotOtherData | eotOtherEot | sndStart | sndCycle | fill | txNew | resend | txOld | sndEvent | timeout | resync
  | eotSend | eotEvent | eotTimeout =>
    exact .inl (exec_sender_takesNone rfl h)
end Rows

/-! ### The step -/

/-- The platform has put an empty Sink in place, before RCV's start (R282(e); log 16). -/
def sinkPlaced (s u : State) : Prop :=
  s.rcv.phase = .idle ∧ s.script.head? = some .newSink ∧ u.sink = []

/-- Fetching the next operation of `s` leaves the Sink but for `newSink`, which performs none, and an operation that carries a
Data frame is one that takes it to RCV. -/
def Fetched.Feeds (s : State) : Fetched → Prop
  | .perform i u => u.sink = s.sink ∧ ∀ f, carriesData i f → takesData s f
  | .still u => u.sink = s.sink ∨ sinkPlaced s u
  | .reject _ => True

section Feeding
variable {s : State}

/-- RESET, the starts and SND.CYCLE carry no frame. -/
theorem feeds_perform {i : Instr} {u : State} (hi : ∀ f, ¬ carriesData i f) (hu : u.sink = s.sink) :
    (Fetched.perform i u).Feeds s :=
  ⟨hu, fun f hf => absurd hf (hi f)⟩

theorem not_carriesData {i : Instr} (hd : ∀ f, i ≠ .rcvData f) (he : ∀ a, i ≠ .rcvEvent a) (f : Body) :
    ¬ carriesData i f := by
  rintro (h | ⟨b, g, h, -⟩)
  · exact hd f h
  · exact he _ h

/-- The row that takes an answer is an event of the engine that waited for it (R147, R201, R221). -/
theorem eventRow_cases {e : Role} {a : Answer} {i : Instr} (h : eventRow e a s = some i) :
    (e = .sender ∧ (i = .sndEvent a ∨ i = .eotEvent a)) ∨ (e = .receiver ∧ i = .rcvEvent a) := by
  cases e with
  | sender => cases hp : s.snd.phase <;> simp [eventRow, hp] at h <;> simp [h]
  | receiver => cases hp : s.rcv.phase <;> simp [eventRow, hp] at h; simp [h]

/-- The Channel answers a datagram only by delivering one of the bag (R70). -/
theorem channelAnswer_buffer {e : Role} {c : RecvChoice} {b : Datagram} {u : State}
    (h : channelAnswer e c s = some (.buffer b, u)) : ∃ i, c = .deliver i ∧ (s.side e).inbox[i]? = some b := by
  cases c with
  | timeout | error => cases h
  | deliver i =>
    unfold channelAnswer at h
    dsimp only at h
    split at h
    next hb =>
      cases h
      exact ⟨i, rfl, hb⟩
    next => cases h

/-- Only a datagram delivered to RCV comes to RCV.EVENT of a buffer. -/
theorem takesData_of_answer {e : Role} {c : RecvChoice} {a : Answer} {u : State} {i : Instr} {rest : List Move} {f : Body}
    (hs : s.script = .answer e c :: rest) (hc : channelAnswer e c (s.setScript rest) = some (a, u))
    (hi : eventRow e a (s.setScript rest) = some i) (hf : carriesData i f) : takesData s f := by
  rcases eventRow_cases hi with ⟨-, rfl | rfl⟩ | ⟨rfl, rfl⟩
  · exact absurd hf (not_carriesData (by nofun) (by nofun) f)
  · exact absurd hf (not_carriesData (by nofun) (by nofun) f)
  · rcases hf with hdata | ⟨b, g, hb, hg, hk, rfl⟩
    · cases hdata
    · cases hb
      obtain ⟨j, rfl, hj⟩ := channelAnswer_buffer hc
      exact .inl ⟨j, b, g, by rw [hs]; rfl, hj, hg, hk, rfl⟩

theorem fetchAnswer_feeds {e : Role} {c : RecvChoice} {rest : List Move} (hs : s.script = .answer e c :: rest) :
    (fetchAnswer e c (s.setScript rest)).Feeds s := by
  unfold fetchAnswer
  split
  · exact .inl rfl
  next a u hc =>
    split
    · exact .inl rfl
    next i hi =>
      have htake : ∀ f, carriesData i f → takesData s f := fun _ => takesData_of_answer hs hc hi
      have hsink : u.sink = s.sink := by
        obtain ⟨bag, -, rfl⟩ := channelAnswer_setSide hc
        simp
      split
      · exact feeds_perform (not_carriesData nofun nofun) rfl
      · exact ⟨by simpa using hsink, htake⟩
      · exact ⟨hsink, htake⟩

theorem fetchMove_feeds {m : Move} {rest : List Move} (hs : s.script = m :: rest) :
    (fetchMove m (s.setScript rest)).Feeds s := by
  cases m with
  | op r bytes =>
    cases hd : decodeIn r bytes with
    | error err =>
      rw [fetchMove_op_error _ hd]
      trivial
    | ok i =>
      rw [fetchMove_op_ok _ hd]
      refine ⟨rfl, fun f hf => .inr ⟨r, bytes, by rw [hs]; rfl, ?_⟩⟩
      rcases hf with rfl | ⟨b, g, rfl, hg⟩
      · exact .inl hd
      · exact .inr ⟨b, g, hd, hg⟩
  | host e rst start =>
    simp only [fetchMove, fetchHost]
    split
    · exact feeds_perform (not_carriesData nofun nofun) rfl
    split
    · cases e <;> exact feeds_perform (not_carriesData nofun nofun) rfl
    · exact .inl rfl
  | run =>
    simp only [fetchMove, fetchRun]
    split
    · exact feeds_perform (not_carriesData nofun nofun) rfl
    · exact .inl rfl
  | answer e c => exact fetchAnswer_feeds hs
  | drop e i | dup e i | plan e as | armRst e n => exact .inl (setSide_sink _ _ _)
  | load chunks fl =>
    simp only [fetchMove]
    split
    · exact .inl rfl
    · trivial
  | newSink =>
    simp only [fetchMove]
    split
    next hfree => exact .inr ⟨of_decide_eq_true hfree, by rw [hs]; rfl, rfl⟩
    · trivial

theorem fetch_feeds (s : State) : (fetch s).Feeds s := by
  cases hs : s.script with
  | nil =>
    rw [fetch, hs]
    exact .inl rfl
  | cons m rest =>
    rw [fetch_of_script hs]
    exact fetchMove_feeds hs
end Feeding

/-- A step accepts no frame, or the Data frame it takes to RCV, or it puts an empty Sink in place (R228). -/
theorem step_takesFrom {s t : State} (h : step s = .next t) :
    TakesFrom (takesData s) s t ∨ (t.rcv = s.rcv ∧ sinkPlaced s t) := by
  have hd := fetch_does s
  have hfeed := fetch_feeds s
  cases hf : fetch s with
  | perform i u =>
    rw [hf] at hd hfeed
    obtain ⟨hsink, htake⟩ := hfeed
    rw [step_of_perform hf] at h
    have hu : RcvUntouched s u := ⟨hd.rcv, hsink, (hd.side .receiver).log⟩
    exact .inl (hu.takesFrom_trans htake (exec_takesFrom h))
  | still u =>
    rw [hf] at hd hfeed
    rw [step_of_still hf] at h
    cases h
    rcases hfeed with hsink | hplaced
    · exact .inl (.inl (noneTaken_of_expectedSeq hsink (congrArg Receiver.expectedSeq hd.rcv)))
    · exact .inr ⟨hd.rcv, hplaced⟩
  | reject r =>
    rw [step_of_reject hf] at h
    cases h

/-- Settles O53: `step_takesFrom`, case by case. -/
theorem expectedSeqAdvancesOnlyOnAcceptance : Obligations.ExpectedSeqAdvancesOnlyOnAcceptance := by
  intro s t h
  rcases step_takesFrom h with (hnone | ⟨f, htake, hacc⟩) | ⟨hrcv, hplaced⟩
  · exact ⟨fun hne => .inl (hnone.seq.resolve_left hne), fun hne => absurd hnone.sink hne⟩
  · refine ⟨fun hne => ?_, fun _ => .inl ⟨hacc.phase, f, htake, hacc.order, hacc.sink⟩⟩
    rcases hacc.seq with hstands | ⟨hadvanced, hlog⟩
    · exact .inl (hstands.resolve_left hne)
    · exact .inr ⟨hadvanced, f, htake, hacc.order, hacc.sink, hlog⟩
  · exact ⟨fun hne => absurd (congrArg Receiver.expectedSeq hrcv) hne, fun _ => .inr hplaced⟩

/-! ### The rows of RCV -/

/-- Settles O48: the one test of RCV.START. -/
theorem rcvStartOnlyInIdle : Obligations.RcvStartOnlyInIdle :=
  fun _ => ⟨fun hp => if_pos hp, execRcvStart_of_started⟩

/-- `s` with one more event in RCV's log (R78, R258). -/
def rcvLogged (ev : Event) (s : State) : State :=
  s.setSide .receiver { s.rcvSide with log := s.rcvSide.log ++ [ev] }

/-- `s` with a Data frame's data appended to the Sink and its number recorded (R222). -/
def dataTaken (f : Body) (s : State) : State :=
  rcvLogged (.dataRx f.seq) (s.setSink (s.sink ++ f.payload.take f.len.toNat))

section Logged
variable (s : State)

theorem record_receiver_of_noRst {s : State} (ev : Event) (hr : noRst .receiver s) :
    record .receiver ev s = .ok () (rcvLogged ev s) :=
  external_none _ hr

theorem sinkAppend_of_noRst {s : State} (d : List Byte) (hr : noRst .receiver s) :
    sinkAppend d s = .ok () (s.setSink (s.sink ++ d)) :=
  external_none _ hr

theorem noRst_rcvLogged (ev : Event) : noRst .receiver (rcvLogged ev s) ↔ noRst .receiver s := Iff.rfl
theorem sendOk_rcvLogged (ev : Event) : sendOk .receiver (rcvLogged ev s) ↔ sendOk .receiver s := Iff.rfl
theorem noRst_dataTaken (f : Body) : noRst .receiver (dataTaken f s) ↔ noRst .receiver s := Iff.rfl
theorem sendOk_dataTaken (f : Body) : sendOk .receiver (dataTaken f s) ↔ sendOk .receiver s := Iff.rfl

theorem setSink_setRcv (d : List Byte) (x : Receiver) : (s.setSink d).setRcv x = { s with sink := d, rcv := x } := rfl

/-- The reply to a Data frame does not read the Sink. -/
theorem passed_dataTaken (g : Frame) (f : Body) :
    passed .receiver g (dataTaken f s) =
      (passed .receiver g (rcvLogged (.dataRx f.seq) s)).setSink (s.sink ++ f.payload.take f.len.toNat) := rfl

theorem sendFailed_dataTaken (g : Frame) (kept : Bool) (rest : List SendAnswer) (f : Body) :
    sendFailed .receiver g kept rest (dataTaken f s) =
      (sendFailed .receiver g kept rest (rcvLogged (.dataRx f.seq) s)).setSink (s.sink ++ f.payload.take f.len.toNat) := rfl
end Logged

/-- RCV.DATA with no rst due is the append, the record, the reply and the advance (R222). -/
theorem exec_rcvData {s : State} {f : Body} (hp : s.rcv.phase = .wait) (hn : f.seq = s.rcv.expectedSeq)
    (hr : noRst .receiver s) :
    exec (.rcvData f) s =
      ((sendFrame .receiver (frameAck s.rcv.expectedSeq) (dataTaken f s)).bind fun _ u =>
        .ok () (u.setRcv { u.rcv with expectedSeq := u.rcv.expectedSeq + 1#3 })).outcome := by
  have hrow : exec (.rcvData f) s = (rcvDataBody f s).outcome := onlyWhen_of_eq_true ((rcvInOrder_iff s f).2 ⟨hp, hn⟩)
  have hr' : noRst .receiver (s.setSink (s.sink ++ f.payload.take f.len.toNat)) := hr
  rw [hrow, rcvDataBody, sinkAppend_of_noRst _ hr, bind_ok, record_receiver_of_noRst _ hr', bind_ok]
  rfl

/-- RCV.EOT with no rst due is the record, the reply and the phase (R223). -/
theorem exec_rcvEot {s : State} {f : Body} (hp : s.rcv.phase = .wait) (hn : f.seq = s.rcv.expectedSeq)
    (hr : noRst .receiver s) :
    exec (.rcvEot f) s =
      ((sendFrame .receiver (frameEotAck f.seq) (rcvLogged (.eotRx f.seq) s)).bind fun _ u =>
        .ok () (u.setRcvPhase .done)).outcome := by
  have hrow : exec (.rcvEot f) s = (rcvEotBody f s).outcome := onlyWhen_of_eq_true ((rcvInOrder_iff s f).2 ⟨hp, hn⟩)
  rw [hrow, rcvEotBody, record_receiver_of_noRst _ hr, bind_ok]

/-- RCV.OOO is its reply alone, whatever the frame's kind (R224). -/
theorem exec_rcvOoo {s : State} (k : Kind) {f : Body} (hp : s.rcv.phase = .wait) (hn : f.seq ≠ s.rcv.expectedSeq) :
    exec (.rcvOoo k f) s = (sendFrame .receiver (frameAck s.rcv.expectedSeq) s).outcome :=
  onlyWhen_of_eq_true ((rcvOutOfOrder_iff s f).2 ⟨hp, hn⟩)

/-- Settles O49: the append and the record, and then the reply's two answers (R222, R244). -/
theorem rcvDataAcceptsTheFrame : Obligations.RcvDataAcceptsTheFrame := by
  intro s f hp hn hr
  rw [exec_rcvData hp hn hr]
  have hru : noRst .receiver (dataTaken f s) := (noRst_dataTaken s f).2 hr
  refine ⟨fun ha => ?_, fun kept rest ha => ?_⟩
  · rw [sendFrame_passed _ _ _ (frameAck_payload_length _) hru ((sendOk_dataTaken s f).2 ha), bind_ok, outcome_ok,
      passed_dataTaken, setSink_setRcv]
    rfl
  · rw [sendFrame_failed _ _ _ kept rest (frameAck_payload_length _) hru ha, sendFailed_dataTaken]
    rfl

/-- Settles O50: the record, and then the reply's two answers (R223, R244). -/
theorem rcvEotEndsTheTransfer : Obligations.RcvEotEndsTheTransfer := by
  intro s f hp hn hr
  rw [exec_rcvEot hp hn hr]
  have hru : noRst .receiver (rcvLogged (.eotRx f.seq) s) := (noRst_rcvLogged s _).2 hr
  refine ⟨fun ha => ?_, fun kept rest ha => ?_⟩
  · rw [sendFrame_passed _ _ _ (frameEotAck_payload_length _) hru ((sendOk_rcvLogged s _).2 ha)]
    rfl
  · rw [sendFrame_failed _ _ _ kept rest (frameEotAck_payload_length _) hru ha]
    rfl

/-- Settles O51: the reply's two answers (R224, R244). -/
theorem rcvOooRepliesTheNumberItWaitsFor : Obligations.RcvOooRepliesTheNumberItWaitsFor := by
  intro s k f hp hn hr
  rw [exec_rcvOoo k hp hn]
  refine ⟨fun ha => ?_, fun kept rest ha => ?_⟩
  · rw [sendFrame_passed _ _ _ (frameAck_payload_length _) hr ha]
    rfl
  · rw [sendFrame_failed _ _ _ kept rest (frameAck_payload_length _) hr ha]
    rfl

/-- Settles O52: each of these rows is performed in its context, and its operation goes on in the state it found. -/
theorem rcvIgnoresRepliesAndTimeouts : Obligations.RcvIgnoresRepliesAndTimeouts := by
  intro s f hp
  have hwait : rcvWaiting s = true := (rcvWaiting_iff s).2 hp
  refine ⟨fun hn => ?_, onlyWhen_of_eq_true hwait, onlyWhen_of_eq_true hwait⟩
  have hin : (rcvWaiting s && inOrder f s) = true := (rcvInOrder_iff s f).2 ⟨hp, hn⟩
  exact ⟨onlyWhen_of_eq_true hin, onlyWhen_of_eq_true hin⟩

end Sys2Proof.Machine

/-! PROOFS of the exceptions family (60_exceptions.md): the model itself never stops with a fault and refuses the block's own
steps in three named cases (R252, RV9), the host's inputs reach the engines (R251, R259), and what taking a fault does, a bad
answer included (R240 to R252). -/

namespace Sys2Proof.Machine

/-! ### No row stops the model -/

/-- The model does not stop with a fault of its own; the block's faults are next states (R252). -/
def Faultless (o : Host.Outcome State Fault Refusal) : Prop :=
  ∀ f, o ≠ .fault f

theorem faultless_next (t : State) : Faultless (.next t) := nofun
theorem faultless_refused (r : Refusal) : Faultless (.refused r) := nofun

section Rows
variable {s : State}

/-- What `Res.Spec` says of an operation includes that it does not halt. -/
theorem faultless_outcome {α : Type} {P : α → State → Prop} {Q : State → Prop} {r : Res α} (h : r.Spec P Q) :
    Faultless r.outcome := by
  obtain ⟨t, ht, -⟩ := spec_outcome h
  exact ht ▸ faultless_next t

theorem row_faultless {α : Type} {r : Res α} (h : r.KeepsSetting s) {c : Bool} {m : String} :
    Faultless (onlyWhen c m r.outcome) := by
  cases c with
  | true => exact faultless_outcome h
  | false => exact faultless_refused _

/-- ENCODE of a frame with a whole slot writes offsets 0 to 32 and no other (R60, R120). -/
theorem encodeOp_faultless (e : Role) {f : Frame} (hp : f.payload.length = 30) : Faultless (encodeOp e f s).outcome :=
  faultless_outcome (encodeOp_keeps e s hp)

theorem execData_faultless (n : Seq) (len : Len) (d : List Byte) : Faultless (execData n len d s) := by
  unfold execData
  split
  next hr =>
    obtain ⟨hlen, hd⟩ := hr
    exact encodeOp_faultless .sender (frameData_payload_length n len d (hd.trans_le hlen))
  next => exact faultless_refused _

theorem execEncode_faultless (e : Role) (f : Frame) : Faultless (execEncode e f s) := by
  unfold execEncode
  split
  next hf => exact encodeOp_faultless e ((frameWf_iff f).1 hf).2
  next => exact faultless_refused _

theorem execTxOld_faultless (j : BitVec 3) : Faultless (execTxOld j s) := by
  unfold execTxOld
  split
  next en _ => exact row_faultless (txOldBody_keeps s en)
  next => exact faultless_refused _

theorem execSndStart_faultless : Faultless (execSndStart s) := by
  unfold execSndStart
  split
  · split
    · exact faultless_next _
    · exact faultless_refused _
  · exact faultless_next _

theorem execRcvStart_faultless : Faultless (execRcvStart s) := by
  unfold execRcvStart
  split <;> exact faultless_next _

end Rows

/-- No row of the table makes an access outside the frame buffer, in any state. -/
theorem exec_faultless (i : Instr) (s : State) : Faultless (exec i s) := by
  cases i with
  | ack n => exact encodeOp_faultless .receiver (frameAck_payload_length n)
  | data n len d => exact execData_faultless n len d
  | eotAck n => exact encodeOp_faultless .receiver (frameEotAck_payload_length n)
  | eot n => exact encodeOp_faultless .sender (frameEot_payload_length n)
  | ackRx f => exact row_faultless (ackBody_keeps s f.seq)
  | ackDiscard f => exact row_faultless (ackDiscardBody_keeps s)
  | ackCum f => exact row_faultless (ackCumBody_keeps s _)
  | ackLate f => exact row_faultless (ackLateBody_keeps s)
  | ackResync f => exact row_faultless (ackResyncBody_keeps s f.seq)
  | sndIgnoreData f | sndIgnoreEotAck f | sndIgnoreEot f => exact row_faultless (sndIgnoreBody_keeps s)
  | eotAcked f => exact row_faultless (eotAckedBody_keeps s f.seq)
  | eotOtherAck f | eotOtherData f | eotOtherEot f => exact row_faultless (eotOtherBody_keeps s f.seq)
  | rcvData f => exact row_faultless (rcvDataBody_keeps s f)
  | rcvEot f => exact row_faultless (rcvEotBody_keeps s f)
  | rcvOoo k f => exact row_faultless (rcvOooBody_keeps s)
  | rcvIgnoreAck f | rcvIgnoreEotAck f => exact row_faultless (rcvIgnoreBody_keeps s)
  | encode e f => exact execEncode_faultless e f
  | decode e b => exact row_faultless (decodeOp_keeps e s b)
  | sndStart => exact execSndStart_faultless
  | sndCycle => exact row_faultless (sndCycleBody_keeps s)
  | fill => exact row_faultless (fillBody_keeps s)
  | txNew => exact row_faultless (txNewBody_keeps s)
  | resend => exact row_faultless (resendBody_keeps s)
  | txOld j => exact execTxOld_faultless j
  | sndEvent a => exact row_faultless (sndEventBody_keeps s a)
  | timeout => exact row_faultless (timeoutBody_keeps s)
  | resync n => exact row_faultless (resyncBody_keeps s n)
  | eotSend => exact row_faultless (eotSendBody_keeps s)
  | eotEvent a => exact row_faultless (eotEventBody_keeps s a)
  | eotTimeout => exact row_faultless (eotTimeoutBody_keeps s)
  | rcvStart => exact execRcvStart_faultless
  | rcvEvent a => exact row_faultless (rcvEventBody_keeps s a)
  | rcvTimeout => exact row_faultless (rcvTimeoutBody_keeps s)
  | reset e => exact faultless_next _

theorem step_faultless (s : State) : Faultless (step s) := by
  cases hf : fetch s with
  | perform i u => exact step_of_perform hf ▸ exec_faultless i u
  | still u => exact step_of_still hf ▸ faultless_next u
  | reject r => exact step_of_reject hf ▸ faultless_refused r

/-! ### What is refused -/

/-- An operation that runs is not refused, so a row with a context is refused as not selected alone. -/
theorem notSelected_of_refused {α : Type} {c : Bool} {m : String} {r : Res α} {x : Refusal}
    (h : onlyWhen c m r.outcome = .refused x) : NotSelected (.refused x) := by
  cases c with
  | true => cases r <;> cases h
  | false => cases h; exact ⟨m, rfl⟩

/-- SND.START is refused in IDLE with the Source's cursor off chunk 0, and nowhere else (R282(d), RV9; log 13). -/
theorem execSndStart_refused {s : State} {r : Refusal} (h : execSndStart s = .refused r) :
    r = .sourceCursor ∧ s.snd.phase = .idle ∧ s.src.cursor ≠ 0 := by
  unfold execSndStart at h
  split at h
  next hp =>
    split at h
    · cases h
    next hc => cases h; exact ⟨rfl, hp, hc⟩
  next => cases h

theorem execRcvStart_ne_refused (s : State) (r : Refusal) : execRcvStart s ≠ .refused r := by
  unfold execRcvStart
  split <;> exact nofun

/-- A row of the block's own moves, performed in its context, is refused only as SND.START is. -/
theorem OwnRow.refused {i : Instr} {s : State} {r : Refusal} (hi : OwnRow i) (hc : inContext i s)
    (h : exec i s = .refused r) : i = .sndStart ∧ r = .sourceCursor ∧ s.snd.phase = .idle ∧ s.src.cursor ≠ 0 := by
  have hsel : ¬ NotSelected (.refused r) := fun hn =>
    (rowsOutsideTheirContextAreRefused i s).1 (h ▸ hn) hc
  cases hi with
  | sndStart => exact ⟨rfl, execSndStart_refused h⟩
  | sndCycle | sndEvent | eotEvent | rcvEvent => exact absurd (notSelected_of_refused h) hsel
  | rcvStart => exact absurd h (execRcvStart_ne_refused s r)
  | reset e => cases h

/-- A move other than the operation port performs a row in its context, a start of SND being the host's; and it is rejected
only as a Source put in place during a transfer (log 13) or a Sink put in place after RCV's start (log 16). -/
def Fetched.Warranted (m : Move) (s : State) : Fetched → Prop
  | .perform i u => inContext i u ∧ (i = .sndStart → m = .host .sender false true ∧ u = s)
  | .still _ => True
  | .reject r =>
    (r = .sourceChanged ∧ running s.snd = true ∧ ∃ chunks fl, m = .load chunks fl) ∨
      (r = .sinkChanged ∧ s.rcv.phase ≠ .idle ∧ m = .newSink)

/-- The event that takes an answer runs in its phase, whatever the fetch has done to the bag (R98). -/
theorem eventRow_inContext {e : Role} {a : Answer} {s u : State} {i : Instr} (h : eventRow e a s = some i)
    (hsnd : u.snd = s.snd) (hrcv : u.rcv = s.rcv) : inContext i u := by
  cases e with
  | sender =>
    cases hp : s.snd.phase <;> simp [eventRow, hp] at h <;> subst h
    · exact (congrArg Sender.phase hsnd).trans hp
    · exact (congrArg Sender.phase hsnd).trans hp
  | receiver =>
    cases hp : s.rcv.phase <;> simp [eventRow, hp] at h
    subst h
    exact (congrArg Receiver.phase hrcv).trans hp

theorem eventRow_ne_sndStart {e : Role} {a : Answer} {s : State} : eventRow e a s ≠ some .sndStart := fun h => by
  rcases eventRow_cases h with ⟨-, h | h⟩ | ⟨-, h⟩ <;> cases h

theorem fetchAnswer_warranted (m : Move) (e : Role) (c : RecvChoice) (s : State) :
    (fetchAnswer e c s).Warranted m s := by
  unfold fetchAnswer
  split
  · trivial
  next a t hc =>
    obtain ⟨bag, -, rfl⟩ := channelAnswer_setSide hc
    split
    · trivial
    next i hi =>
      have hstart : i ≠ .sndStart := fun h => eventRow_ne_sndStart (h ▸ hi)
      split
      · exact ⟨trivial, nofun⟩
      · exact ⟨eventRow_inContext hi (by simp) (by simp), fun h => absurd h hstart⟩
      · exact ⟨eventRow_inContext hi (by simp) (by simp), fun h => absurd h hstart⟩

theorem fetchHost_warranted (e : Role) (rst start : Bool) (s : State) :
    (fetchHost e rst start s).Warranted (.host e rst start) s := by
  cases rst with
  | true => exact ⟨trivial, nofun⟩
  | false =>
    cases start with
    | false => trivial
    | true =>
      cases e with
      | sender => exact ⟨trivial, fun _ => ⟨rfl, rfl⟩⟩
      | receiver => exact ⟨trivial, nofun⟩

theorem fetchMove_warranted {m : Move} (hm : ∀ r bytes, m ≠ .op r bytes) (s : State) :
    (fetchMove m s).Warranted m s := by
  cases m with
  | op r bytes => exact absurd rfl (hm r bytes)
  | host e rst start => exact fetchHost_warranted e rst start s
  | run =>
    simp only [fetchMove, fetchRun]
    split
    next hp => exact ⟨hp, nofun⟩
    next => trivial
  | answer e c => exact fetchAnswer_warranted _ e c s
  | drop e i | dup e i | plan e as | armRst e n => trivial
  | load chunks fl =>
    cases hr : running s.snd with
    | false => rw [fetchMove_load_free chunks fl hr]; trivial
    | true => rw [fetchMove_load_running chunks fl hr]; exact .inl ⟨rfl, hr, chunks, fl, rfl⟩
  | newSink =>
    by_cases hp : s.rcv.phase = .idle
    · rw [fetchMove_newSink_idle hp]; trivial
    · rw [fetchMove_newSink_started hp]; exact .inr ⟨rfl, hp, rfl⟩

/-- Settles O13: no row stops the model (`exec_faultless`); a refused step is a rejected move or, its row being in context
(`fetchMove_warranted`), a refused SND.START. -/
theorem ownStepsNeverStop : Obligations.OwnStepsNeverStop := by
  refine ⟨step_faultless, fun s r hq h => ?_⟩
  cases hs : s.script with
  | nil => rw [step_of_empty hs] at h; cases h
  | cons m rest =>
    have hm : ∀ r bytes, m ≠ .op r bytes := fun r bytes hop => hq r bytes (by rw [hs, hop, List.head?_cons])
    have hw := fetchMove_warranted hm (s.setScript rest)
    cases hf : fetchMove m (s.setScript rest) with
    | perform i u =>
      rw [step_of_perform_move hs hf] at h
      rw [hf] at hw
      obtain ⟨hctx, hstart⟩ := hw
      obtain ⟨hi, hr, hp, hc⟩ := (fetchMove_own hm hf).refused hctx h
      obtain ⟨rfl, rfl⟩ := hstart hi
      exact .inl ⟨hr, hp, hc, rfl⟩
    | still u => rw [step_of_still_move hs hf] at h; cases h
    | reject x =>
      rw [step_of_reject_move hs hf] at h
      cases h
      rw [hf] at hw
      rcases hw with ⟨hr, hrun, chunks, fl, rfl⟩ | ⟨hr, hp, rfl⟩
      · exact .inr (.inl ⟨hr, hrun, chunks, fl, rfl⟩)
      · exact .inr (.inr ⟨hr, hp, rfl⟩)

/-! ### The host's inputs -/

section HostInputs
variable (e : Role) (s : State)

/-- An rst overrides a start (R251, R259). -/
theorem fetchMove_host_rst (start : Bool) : fetchMove (.host e true start) s = .perform (.reset e) s := rfl

theorem fetchMove_host_sndStart : fetchMove (.host .sender false true) s = .perform .sndStart s := rfl

theorem fetchMove_host_rcvStart : fetchMove (.host .receiver false true) s = .perform .rcvStart s := rfl

theorem fetchMove_host_quiet : fetchMove (.host e false false) s = .still s := rfl
end HostInputs

theorem fetchMove_run_cycle {s : State} (hp : s.snd.phase = .cycle) : fetchMove .run s = .perform .sndCycle s := if_pos hp

theorem fetchMove_run_other {s : State} (hp : s.snd.phase ≠ .cycle) : fetchMove .run s = .still s := if_neg hp

/-- Settles O11: each setting of the two inputs, and the two cases of SND's own move. -/
theorem hostInputsReachTheEngines : Obligations.HostInputsReachTheEngines := by
  refine ⟨fun s rest e rst start hs => ⟨?_, ?_, ?_, ?_⟩, fun s rest hs => ⟨fun hp => ?_, fun hp => ?_⟩⟩
  · rintro rfl
    exact step_of_perform_move hs (fetchMove_host_rst e _ start)
  · rintro rfl rfl rfl
    exact step_of_perform_move hs (fetchMove_host_sndStart _)
  · rintro rfl rfl rfl
    exact step_of_perform_move hs (fetchMove_host_rcvStart _)
  · rintro rfl rfl
    exact step_of_still_move hs (fetchMove_host_quiet e _)
  · exact step_of_perform_move hs (fetchMove_run_cycle hp)
  · exact step_of_still_move hs (fetchMove_run_other hp)

/-! ### Taking a fault -/

theorem takeFault_sender_eq (c : FaultCode) (s : State) :
    takeFault .sender c s = { s with snd := { s.snd with cause := faultCode c, phase := .fault } } := rfl

theorem takeFault_receiver_eq (c : FaultCode) (s : State) :
    takeFault .receiver c s = { s with rcv := { s.rcv with cause := faultCode c, phase := .fault } } := rfl

/-- Settles O16: what R252 writes, for each engine, and the codes of R240's table. -/
theorem takingAFaultWritesCauseAndPhase : Obligations.TakingAFaultWritesCauseAndPhase :=
  ⟨fun c s => ⟨takeFault_sender_eq c s, takeFault_receiver_eq c s⟩, rfl, rfl, rfl, rfl, rfl, rfl, rfl, rfl⟩

/-! ### Bad answers -/

/-- An answer of the Channel that is the fault `c` of the engine that waits for it: Error, or a buffer that DECODE rejects
(R121, R245). -/
inductive BadAnswer : Answer → FaultCode → Prop
  | error : BadAnswer .error .channelRecv
  | buffer {b : Datagram} {err : FrameError} (h : decodeFrame b = .error err) : BadAnswer (.buffer b) (frameFault err)

theorem badAnswer_short {b : Datagram} (h : b.length < 33) : BadAnswer (.buffer b) .malformedShort :=
  .buffer (decodeFrame_short h)

theorem badAnswer_field {b : Datagram} (hlength : 33 ≤ b.length)
    (h : 3 < (b.getD 0 0#8).toNat ∨ 7 < (b.getD 1 0#8).toNat ∨ 30 < (b.getD 2 0#8).toNat) :
    BadAnswer (.buffer b) .malformedField := by
  obtain ⟨err, hb, hfault⟩ := decodeFrame_badField hlength h
  exact hfault ▸ .buffer hb

section Bad
variable {a : Answer} {c : FaultCode} {s : State} (h : BadAnswer a c)
include h

theorem BadAnswer.sndEventBody_eq : sndEventBody a s = raise .sender c s := by
  cases h with
  | error => rfl
  | buffer hb => rw [sndEventBody, sndAnswerBody, decodeOp_error .sender s hb, raise_bind, raise_bind]

theorem BadAnswer.eotEventBody_eq : eotEventBody a s = raise .sender c s := by
  cases h with
  | error => rfl
  | buffer hb => rw [eotEventBody, decodeOp_error .sender s hb, raise_bind]

theorem BadAnswer.rcvEventBody_eq : rcvEventBody a s = raise .receiver c s := by
  cases h with
  | error => rfl
  | buffer hb => rw [rcvEventBody, decodeOp_error .receiver s hb, raise_bind]

theorem BadAnswer.exec_sndEvent (hp : s.snd.phase = .wait) : exec (.sndEvent a) s = .next (takeFault .sender c s) := by
  have hrow : exec (.sndEvent a) s = (sndEventBody a s).outcome := onlyWhen_of_eq_true ((inWait_iff s).2 hp)
  rw [hrow, h.sndEventBody_eq, raise_outcome]

theorem BadAnswer.exec_eotEvent (hp : s.snd.phase = .eotWait) : exec (.eotEvent a) s = .next (takeFault .sender c s) := by
  have hrow : exec (.eotEvent a) s = (eotEventBody a s).outcome := onlyWhen_of_eq_true ((inEotWait_iff s).2 hp)
  rw [hrow, h.eotEventBody_eq, raise_outcome]

theorem BadAnswer.exec_rcvEvent (hp : s.rcv.phase = .wait) : exec (.rcvEvent a) s = .next (takeFault .receiver c s) := by
  have hrow : exec (.rcvEvent a) s = (rcvEventBody a s).outcome := onlyWhen_of_eq_true ((rcvWaiting_iff s).2 hp)
  rw [hrow, h.rcvEventBody_eq, raise_outcome]
end Bad

/-- Settles O17: the three kinds of bad answer, each with its code; in each wait the event is then `takeFault`. -/
theorem badAnswersAreFaults : Obligations.BadAnswersAreFaults := by
  intro s a code h
  have hbad : ∃ c, BadAnswer a c ∧ faultCode c = code := by
    rcases h with ⟨rfl, rfl⟩ | ⟨b, rfl, hshort, rfl⟩ | ⟨b, rfl, hlength, hfield, rfl⟩
    · exact ⟨_, .error, rfl⟩
    · exact ⟨_, badAnswer_short hshort, rfl⟩
    · exact ⟨_, badAnswer_field hlength hfield, rfl⟩
  obtain ⟨c, hc, rfl⟩ := hbad
  exact ⟨hc.exec_sndEvent, hc.exec_eotEvent, hc.exec_rcvEvent⟩

end Sys2Proof.Machine

/-! PROOFS of the reset and hazards family (70_reset_and_hazards.md): an rst that is due inside an operation abandons it (R280).
What every row does with an rst due turns on one relation, `Res.UnlessRst`: an operation is the one that runs with no rst due,
unless the rst abandons it. The abandoned states of the single rows follow call by call. -/

namespace Sys2Proof.Machine

/-! ### An operation with an rst due and the same operation without -/

/-- An rst of this engine is still due, after at most `k` more external calls (log 6). -/
def rstWithin (e : Role) (k : Nat) (s : State) : Prop :=
  ∃ j, j ≤ k ∧ rstDue e j s

/-- `r` runs with an rst due after at most `k` calls, `r'` with none: the rst has abandoned `r` (R280), or it is still due and `r`
came out as `r'` did. -/
inductive Res.UnlessRst {α : Type} (e : Role) (k : Nat) : Res α → Res α → Prop
  | abandoned {t : State} (r' : Res α) (hreset : atReset e t) (hspent : noRst e t) : UnlessRst e k (.stop t) r'
  | ok (a : α) {t : State} (h : rstWithin e k t) : UnlessRst e k (.ok a t) (.ok a (counted e none t))
  | stop {t : State} (h : rstWithin e k t) : UnlessRst e k (.stop t) (.stop (counted e none t))

theorem atReset_resetEngine (e : Role) (s : State) : atReset e (resetEngine e s) := by cases e <;> rfl

theorem noRst_resetEngine (e : Role) (s : State) : noRst e (resetEngine e s) := by cases e <;> rfl

theorem counted_counted (e : Role) (r r' : Option Nat) (s : State) : counted e r (counted e r' s) = counted e r s := by
  cases e <;> rfl

theorem encoded_counted (e : Role) (r : Option Nat) (f : Frame) (s : State) :
    encoded e f (counted e r s) = counted e r (encoded e f s) := by
  cases e <;> rfl

/-- A call that is made with an rst due later counts it down (log 6). -/
theorem external_counted {α : Type} {e : Role} {n : Nat} {s : State} (c : State → Res α) (h : rstDue e (n + 1) s) :
    external e s c = c (counted e (some n) s) := by
  rw [rstDue] at h
  simp only [external, h, counted]

section Unless
variable {α β : Type} {e : Role} {k : Nat} {s t t' : State}

theorem rstWithin_of_eq (h : rstWithin e k s) (hr : (t.side e).rstAt = (s.side e).rstAt) : rstWithin e k t := by
  obtain ⟨j, hj, hdue⟩ := h
  exact ⟨j, hj, hr.trans hdue⟩

/-- The operation leads from `s` to `t` without a call, and does the same where no rst is due. -/
theorem unlessRst_ok (a : α) (h : rstWithin e k s) (hr : (t.side e).rstAt = (s.side e).rstAt := by rfl)
    (ht : t' = counted e none t := by rfl) : (Res.ok a t).UnlessRst e k (.ok a t') :=
  ht ▸ .ok a (rstWithin_of_eq h hr)

theorem unlessRst_raise (h : rstWithin e k s) (c : FaultCode) :
    (raise e c s : Res α).UnlessRst e k (raise e c (counted e none s)) := by
  have hcomm : takeFault e c (counted e none s) = counted e none (takeFault e c s) := by cases e <;> rfl
  rw [raise, raise, hcomm]
  exact .stop (rstWithin_of_eq h (by simp))

theorem unlessRst_bind {r r' : Res α} {c : α → State → Res β} (h : r.UnlessRst e k r')
    (hc : ∀ a t, rstWithin e k t → (c a t).UnlessRst e k (c a (counted e none t))) :
    (r.bind c).UnlessRst e k (r'.bind c) := by
  cases h with
  | abandoned _ hreset hspent => exact .abandoned _ hreset hspent
  | ok a ht => exact hc a _ ht
  | stop ht => exact .stop ht

theorem unlessRst_ite {p : Prop} [Decidable p] {r r' q q' : Res α} (hr : p → r.UnlessRst e k r')
    (hq : ¬ p → q.UnlessRst e k q') : (if p then r else q).UnlessRst e k (if p then r' else q') := by
  by_cases hp : p
  · rw [if_pos hp, if_pos hp]; exact hr hp
  · rw [if_neg hp, if_neg hp]; exact hq hp

/-- An rst that is due now abandons the operation before the call; one that is due later is one call nearer (R280; log 6). -/
theorem external_unlessRst {c : State → Res α} (h : rstWithin e k s)
    (hc : ∀ t, rstWithin e k t → (c t).UnlessRst e k (c (counted e none t))) :
    (external e s c).UnlessRst e k (external e (counted e none s) c) := by
  obtain ⟨j, hj, hdue⟩ := h
  cases j with
  | zero =>
    rw [external_due c hdue]
    exact .abandoned _ (atReset_resetEngine e s) (noRst_resetEngine e s)
  | succ n =>
    have hnone : ((counted e none s).side e).rstAt = none := by simp
    have hnext := hc (counted e (some n) s) ⟨n, Nat.le_of_succ_le hj, by simp [rstDue]⟩
    rwa [external_counted c hdue, external_none c hnone, ← counted_counted e none (some n) s]
end Unless

/-! ### The external calls and the CODEC, with an rst due and without -/

section CallsUnless
variable {e : Role} {k : Nat} {s : State}

theorem record_unlessRst (h : rstWithin e k s) (ev : Event) :
    (record e ev s).UnlessRst e k (record e ev (counted e none s)) :=
  external_unlessRst h fun t ht => by cases e <;> exact unlessRst_ok () ht

theorem srcSeek_unlessRst (h : rstWithin .sender k s) (i : Nat) :
    (srcSeek i s).UnlessRst .sender k (srcSeek i (counted .sender none s)) :=
  external_unlessRst h fun _ ht => unlessRst_ok () ht

theorem srcNext_unlessRst (h : rstWithin .sender k s) :
    (srcNext s).UnlessRst .sender k (srcNext (counted .sender none s)) := by
  refine external_unlessRst h fun t ht => ?_
  rw [counted_src]
  cases t.src.chunks[t.src.cursor]? with
  | none => exact unlessRst_ok _ ht
  | some d => exact unlessRst_ok _ ht

theorem sinkAppend_unlessRst (h : rstWithin .receiver k s) (d : List Byte) :
    (sinkAppend d s).UnlessRst .receiver k (sinkAppend d (counted .receiver none s)) :=
  external_unlessRst h fun _ ht => unlessRst_ok () ht

theorem chSend_unlessRst (h : rstWithin e k s) (b : Datagram) :
    (chSend e b s).UnlessRst e k (chSend e b (counted e none s)) := by
  refine external_unlessRst h fun t ht => ?_
  have hanswers : ((counted e none t).side e).answers = (t.side e).answers := by simp
  rw [hanswers]
  cases (t.side e).answers with
  | nil => cases e <;> exact unlessRst_ok () ht
  | cons a rest =>
    have hspent : rstWithin e k (t.setSide e { t.side e with answers := rest }) := rstWithin_of_eq ht (by simp)
    cases a with
    | taken => cases e <;> exact unlessRst_ok () ht
    | lost => cases e <;> exact unlessRst_ok () ht
    | error kept =>
      cases kept with
      | false => cases e <;> exact unlessRst_raise hspent _
      | true =>
        have hkept := rstWithin_of_eq (t := deposit e b (t.setSide e { t.side e with answers := rest })) hspent
          (by simp [deposit])
        cases e <;> exact unlessRst_raise hkept _

theorem encodeOp_unlessRst (h : rstWithin e k s) {f : Frame} (hp : f.payload.length = 30) :
    (encodeOp e f s).UnlessRst e k (encodeOp e f (counted e none s)) := by
  rw [encodeOp_eq e f _ hp, encodeOp_eq e f _ hp]
  exact unlessRst_ok _ h (by simp) (encoded_counted e none f s)

theorem sendFrame_unlessRst (h : rstWithin e k s) {f : Frame} (hp : f.payload.length = 30) :
    (sendFrame e f s).UnlessRst e k (sendFrame e f (counted e none s)) :=
  unlessRst_bind (encodeOp_unlessRst h hp) fun b _ ht => chSend_unlessRst ht b

theorem decodeOp_unlessRst (h : rstWithin e k s) (b : Datagram) :
    (decodeOp e b s).UnlessRst e k (decodeOp e b (counted e none s)) := by
  cases hb : decodeFrame b with
  | ok f =>
    rw [decodeOp_ok e _ hb, decodeOp_ok e _ hb]
    cases e <;> exact unlessRst_ok f h
  | error err =>
    rw [decodeOp_error e _ hb, decodeOp_error e _ hb]
    exact unlessRst_raise h _
end CallsUnless

/-! ### The operations of RCV, with an rst due and without -/

section ReceivingUnless
variable {k : Nat} {s : State} (h : rstWithin .receiver k s)
include h

theorem rcvDataBody_unlessRst (f : Body) :
    (rcvDataBody f s).UnlessRst .receiver k (rcvDataBody f (counted .receiver none s)) :=
  unlessRst_bind (sinkAppend_unlessRst h _) fun _ _ ht => unlessRst_bind (record_unlessRst ht _) fun _ _ hu =>
    unlessRst_bind (sendFrame_unlessRst hu (frameAck_payload_length _)) fun _ _ hv => unlessRst_ok () hv

theorem rcvEotBody_unlessRst (f : Body) :
    (rcvEotBody f s).UnlessRst .receiver k (rcvEotBody f (counted .receiver none s)) :=
  unlessRst_bind (record_unlessRst h _) fun _ _ ht =>
    unlessRst_bind (sendFrame_unlessRst ht (frameEotAck_payload_length _)) fun _ _ hu => unlessRst_ok () hu

theorem rcvOooBody_unlessRst : (rcvOooBody s).UnlessRst .receiver k (rcvOooBody (counted .receiver none s)) :=
  sendFrame_unlessRst h (frameAck_payload_length _)

theorem rcvIgnoreBody_unlessRst :
    (rcvIgnoreBody s).UnlessRst .receiver k (rcvIgnoreBody (counted .receiver none s)) :=
  .ok () h

theorem rcvTimeoutBody_unlessRst :
    (rcvTimeoutBody s).UnlessRst .receiver k (rcvTimeoutBody (counted .receiver none s)) :=
  .ok () h

theorem rcvFrameBody_unlessRst (f : Frame) :
    (rcvFrameBody f s).UnlessRst .receiver k (rcvFrameBody f (counted .receiver none s)) := by
  refine unlessRst_ite (fun _ => ?_) fun _ => rcvOooBody_unlessRst h
  cases f.kind with
  | data => exact rcvDataBody_unlessRst h _
  | eot => exact rcvEotBody_unlessRst h _
  | ack | eotAck => exact rcvIgnoreBody_unlessRst h

theorem rcvEventBody_unlessRst (a : Answer) :
    (rcvEventBody a s).UnlessRst .receiver k (rcvEventBody a (counted .receiver none s)) := by
  cases a with
  | error => exact unlessRst_raise h _
  | timeout => exact rcvTimeoutBody_unlessRst h
  | buffer b => exact unlessRst_bind (decodeOp_unlessRst h b) fun f _ ht => rcvFrameBody_unlessRst ht f
end ReceivingUnless

/-! ### The operations of SND, with an rst due and without -/

section SendingUnless
variable {k : Nat} {s : State}

theorem txNewBody_unlessRst (h : rstWithin .sender k s) :
    (txNewBody s).UnlessRst .sender k (txNewBody (counted .sender none s)) := by
  refine unlessRst_bind (srcNext_unlessRst h) fun a t ht => ?_
  cases a with
  | exhausted => exact unlessRst_ok () ht
  | chunk d isLast =>
    exact unlessRst_ite (fun _ => unlessRst_raise ht _) fun _ => unlessRst_ite (fun _ => unlessRst_raise ht _) fun hd =>
      unlessRst_ite (fun _ => unlessRst_raise ht _) fun _ =>
        unlessRst_bind (sendFrame_unlessRst ht (chunk_payload_length _ d hd)) fun _ _ hu => unlessRst_ok () hu

theorem fillLoop_unlessRst (n : Nat) (h : rstWithin .sender k s) :
    (fillLoop n s).UnlessRst .sender k (fillLoop n (counted .sender none s)) := by
  induction n generalizing s with
  | zero => exact .ok () h
  | succ n ih =>
    exact unlessRst_ite (fun _ => unlessRst_bind (txNewBody_unlessRst h) fun _ _ ht => ih ht) fun _ => .ok () h

theorem txOldBody_unlessRst (h : rstWithin .sender k s) (en : Entry) :
    (txOldBody en s).UnlessRst .sender k (txOldBody en (counted .sender none s)) := by
  refine unlessRst_bind (srcSeek_unlessRst h _) fun _ t ht => unlessRst_bind (srcNext_unlessRst ht) fun a u hu => ?_
  cases a with
  | exhausted => exact unlessRst_raise hu _
  | chunk d isLast =>
    exact unlessRst_ite (fun _ => unlessRst_raise hu _) fun _ => unlessRst_ite (fun _ => unlessRst_raise hu _) fun hd =>
      sendFrame_unlessRst hu (chunk_payload_length _ d hd)

theorem txOldAll_unlessRst (l : List Entry) (h : rstWithin .sender k s) :
    (txOldAll l s).UnlessRst .sender k (txOldAll l (counted .sender none s)) := by
  induction l generalizing s with
  | nil => exact .ok () h
  | cons en rest ih => exact unlessRst_bind (txOldBody_unlessRst h en) fun _ _ ht => ih ht

variable (h : rstWithin .sender k s)
include h

theorem fillBody_unlessRst : (fillBody s).UnlessRst .sender k (fillBody (counted .sender none s)) :=
  fillLoop_unlessRst _ h

theorem resendBody_unlessRst : (resendBody s).UnlessRst .sender k (resendBody (counted .sender none s)) :=
  unlessRst_bind (txOldAll_unlessRst _ h) fun _ _ ht =>
    unlessRst_bind (srcSeek_unlessRst ht _) fun _ _ hu => unlessRst_ok () hu

theorem eotSendBody_unlessRst : (eotSendBody s).UnlessRst .sender k (eotSendBody (counted .sender none s)) :=
  unlessRst_bind (sendFrame_unlessRst h (frameEot_payload_length _)) fun _ _ ht => unlessRst_ok () ht

theorem cycleFill_unlessRst : (cycleFill s).UnlessRst .sender k (cycleFill (counted .sender none s)) :=
  unlessRst_ite (fun _ => fillBody_unlessRst h) fun _ => .ok () h

theorem cycleResend_unlessRst : (cycleResend s).UnlessRst .sender k (cycleResend (counted .sender none s)) :=
  unlessRst_ite (fun _ => resendBody_unlessRst h) fun _ => .ok () h

theorem sndCycleBody_unlessRst : (sndCycleBody s).UnlessRst .sender k (sndCycleBody (counted .sender none s)) :=
  unlessRst_ite (fun _ => eotSendBody_unlessRst h) fun _ => unlessRst_bind (cycleFill_unlessRst h) fun _ _ ht =>
    unlessRst_bind (cycleResend_unlessRst ht) fun _ _ hu => unlessRst_ok () hu

theorem timeoutBody_unlessRst : (timeoutBody s).UnlessRst .sender k (timeoutBody (counted .sender none s)) :=
  unlessRst_ok () h

theorem ackCumBody_unlessRst (count : Nat) :
    (ackCumBody count s).UnlessRst .sender k (ackCumBody count (counted .sender none s)) :=
  unlessRst_ok () h

theorem ackLateBody_unlessRst : (ackLateBody s).UnlessRst .sender k (ackLateBody (counted .sender none s)) :=
  ackCumBody_unlessRst h _

theorem ackDiscardBody_unlessRst :
    (ackDiscardBody s).UnlessRst .sender k (ackDiscardBody (counted .sender none s)) :=
  .ok () h

theorem sndIgnoreBody_unlessRst : (sndIgnoreBody s).UnlessRst .sender k (sndIgnoreBody (counted .sender none s)) :=
  .ok () h

/-- RESYNC's registers are written before its one call, the rewind (R177). -/
theorem resyncBody_unlessRst (n : Seq) :
    (resyncBody n s).UnlessRst .sender k (resyncBody n (counted .sender none s)) := by
  rw [resyncBody, resyncBody, resyncWith, resyncWith, counted_adj, counted_snd]
  cases resyncAdj s.adj s.snd.ackedCount with
  | none => exact unlessRst_raise h _
  | some a =>
    have hwritten : rstWithin .sender k (s.setSnd (resyncRegs n a s.snd)) := h
    exact unlessRst_bind (srcSeek_unlessRst hwritten _) fun _ _ ht => unlessRst_ok () ht

theorem ackResyncBody_unlessRst (n : Seq) :
    (ackResyncBody n s).UnlessRst .sender k (ackResyncBody n (counted .sender none s)) :=
  resyncBody_unlessRst h n

theorem ackBody_unlessRst (n : Seq) : (ackBody n s).UnlessRst .sender k (ackBody n (counted .sender none s)) := by
  refine unlessRst_ite (fun _ => ackDiscardBody_unlessRst h) fun _ => unlessRst_bind (record_unlessRst h _) fun _ t ht => ?_
  rw [counted_snd]
  cases scanWindow n (window t.snd) with
  | some count => exact ackCumBody_unlessRst ht count
  | none => exact unlessRst_ite (fun _ => ackLateBody_unlessRst ht) fun _ => ackResyncBody_unlessRst ht n

theorem sndFrameBody_unlessRst (f : Frame) :
    (sndFrameBody f s).UnlessRst .sender k (sndFrameBody f (counted .sender none s)) := by
  unfold sndFrameBody
  cases f.kind with
  | ack => exact ackBody_unlessRst h _
  | data | eotAck | eot => exact sndIgnoreBody_unlessRst h

theorem sndAnswerBody_unlessRst (a : Answer) :
    (sndAnswerBody a s).UnlessRst .sender k (sndAnswerBody a (counted .sender none s)) := by
  cases a with
  | error => exact unlessRst_raise h _
  | timeout => exact timeoutBody_unlessRst h
  | buffer b => exact unlessRst_bind (decodeOp_unlessRst h b) fun f _ ht => sndFrameBody_unlessRst ht f

theorem sndEventBody_unlessRst (a : Answer) :
    (sndEventBody a s).UnlessRst .sender k (sndEventBody a (counted .sender none s)) :=
  unlessRst_bind (sndAnswerBody_unlessRst h a) fun _ _ ht => unlessRst_ok () ht

theorem eotAckedBody_unlessRst (n : Seq) :
    (eotAckedBody n s).UnlessRst .sender k (eotAckedBody n (counted .sender none s)) :=
  unlessRst_bind (record_unlessRst h _) fun _ _ ht => unlessRst_ok () ht

theorem eotOtherBody_unlessRst (n : Seq) :
    (eotOtherBody n s).UnlessRst .sender k (eotOtherBody n (counted .sender none s)) :=
  unlessRst_bind (resyncBody_unlessRst h n) fun _ _ ht => unlessRst_ok () ht

theorem eotTimeoutBody_unlessRst : (eotTimeoutBody s).UnlessRst .sender k (eotTimeoutBody (counted .sender none s)) :=
  unlessRst_ok () h

theorem eotFrameBody_unlessRst (f : Frame) :
    (eotFrameBody f s).UnlessRst .sender k (eotFrameBody f (counted .sender none s)) := by
  unfold eotFrameBody
  cases f.kind with
  | eotAck => exact eotAckedBody_unlessRst h _
  | ack | data | eot => exact eotOtherBody_unlessRst h _

theorem eotEventBody_unlessRst (a : Answer) :
    (eotEventBody a s).UnlessRst .sender k (eotEventBody a (counted .sender none s)) := by
  cases a with
  | error => exact unlessRst_raise h _
  | timeout => exact eotTimeoutBody_unlessRst h
  | buffer b => exact unlessRst_bind (decodeOp_unlessRst h b) fun f _ ht => eotFrameBody_unlessRst ht f
end SendingUnless

/-! ### The rows, with an rst due and without -/

/-- A next state of the row has the engine at reset with the rst spent, or is that of the row with no rst due (R280). -/
def RowUnlessRst (e : Role) (k : Nat) (o o' : Host.Outcome State Fault Refusal) : Prop :=
  ∀ t, o = .next t → (atReset e t ∧ noRst e t) ∨ ∃ j, j ≤ k ∧ rstDue e j t ∧ o' = .next (counted e none t)

section RowsUnless
variable {e : Role} {k : Nat} {s : State}

theorem outcome_unlessRst {α : Type} {r r' : Res α} (h : r.UnlessRst e k r') : RowUnlessRst e k r.outcome r'.outcome := by
  intro t ht
  cases h with
  | abandoned _ hreset hspent => cases ht; exact .inl ⟨hreset, hspent⟩
  | ok a hu | stop hu =>
    cases ht
    obtain ⟨j, hj, hdue⟩ := hu
    exact .inr ⟨j, hj, hdue, rfl⟩

/-- A row that makes no call, and does the same where no rst is due. -/
theorem rowUnlessRst_next {t t' : State} (h : rstWithin e k s) (hr : (t.side e).rstAt = (s.side e).rstAt := by rfl)
    (ht : t' = counted e none t := by rfl) : RowUnlessRst e k (.next t) (.next t') :=
  outcome_unlessRst (unlessRst_ok () h hr ht)

theorem rowUnlessRst_refused (r : Refusal) (o : Host.Outcome State Fault Refusal) : RowUnlessRst e k (.refused r) o := by
  rintro t ⟨⟩

/-- A row's context does not read the rst counter. -/
theorem row_unlessRst {α : Type} {r r' : Res α} {c c' : Bool} {m : String} (h : r.UnlessRst e k r') (hc : c' = c := by rfl) :
    RowUnlessRst e k (onlyWhen c m r.outcome) (onlyWhen c' m r'.outcome) := by
  subst hc
  cases c' with
  | true => exact outcome_unlessRst h
  | false => exact rowUnlessRst_refused _ _

theorem execData_unlessRst (h : rstWithin .sender k s) (n : Seq) (len : Len) (d : List Byte) :
    RowUnlessRst .sender k (execData n len d s) (execData n len d (counted .sender none s)) := by
  unfold execData
  split
  next hr =>
    obtain ⟨hlen, hd⟩ := hr
    exact outcome_unlessRst (encodeOp_unlessRst h (frameData_payload_length n len d (hd.trans_le hlen)))
  next => exact rowUnlessRst_refused _ _

theorem execEncode_unlessRst (h : rstWithin e k s) (f : Frame) :
    RowUnlessRst e k (execEncode e f s) (execEncode e f (counted e none s)) := by
  unfold execEncode
  split
  next hf => exact outcome_unlessRst (encodeOp_unlessRst h ((frameWf_iff f).1 hf).2)
  next => exact rowUnlessRst_refused _ _

theorem execTxOld_unlessRst (h : rstWithin .sender k s) (j : BitVec 3) :
    RowUnlessRst .sender k (execTxOld j s) (execTxOld j (counted .sender none s)) := by
  rw [execTxOld, execTxOld, counted_snd]
  cases (window s.snd)[j.toNat]? with
  | none => exact rowUnlessRst_refused _ _
  | some en => exact row_unlessRst (txOldBody_unlessRst h en)

theorem execSndStart_unlessRst (h : rstWithin .sender k s) :
    RowUnlessRst .sender k (execSndStart s) (execSndStart (counted .sender none s)) := by
  rw [execSndStart, execSndStart, counted_snd, counted_src]
  split
  · split
    · exact rowUnlessRst_next h
    · exact rowUnlessRst_refused _ _
  · exact rowUnlessRst_next h

theorem execRcvStart_unlessRst (h : rstWithin .receiver k s) :
    RowUnlessRst .receiver k (execRcvStart s) (execRcvStart (counted .receiver none s)) := by
  rw [execRcvStart, execRcvStart, counted_rcv]
  split
  · exact rowUnlessRst_next h
  · exact rowUnlessRst_next h

theorem execDecode_unlessRst (h : rstWithin e k s) (b : Datagram) :
    RowUnlessRst e k (execDecode e b s) (execDecode e b (counted e none s)) :=
  row_unlessRst (decodeOp_unlessRst h b) (by cases e <;> rfl)

theorem execReset_unlessRst (o : Host.Outcome State Fault Refusal) : RowUnlessRst e k (execReset e s) o := by
  rintro _ ⟨⟩
  exact .inl ⟨atReset_resetEngine e s, noRst_resetEngine e s⟩

/-- Every row of the table, with an rst of its engine due (R280). -/
theorem exec_unlessRst {i : Instr} (h : rstWithin (engineOf i) k s) :
    RowUnlessRst (engineOf i) k (exec i s) (exec i (counted (engineOf i) none s)) := by
  cases i with
  | ack n => exact outcome_unlessRst (encodeOp_unlessRst h (frameAck_payload_length n))
  | data n len d => exact execData_unlessRst h n len d
  | eotAck n => exact outcome_unlessRst (encodeOp_unlessRst h (frameEotAck_payload_length n))
  | eot n => exact outcome_unlessRst (encodeOp_unlessRst h (frameEot_payload_length n))
  | ackRx f => exact row_unlessRst (ackBody_unlessRst h f.seq)
  | ackDiscard f => exact row_unlessRst (ackDiscardBody_unlessRst h)
  | ackCum f => exact row_unlessRst (ackCumBody_unlessRst h _)
  | ackLate f => exact row_unlessRst (ackLateBody_unlessRst h)
  | ackResync f => exact row_unlessRst (ackResyncBody_unlessRst h f.seq)
  | sndIgnoreData f | sndIgnoreEotAck f | sndIgnoreEot f => exact row_unlessRst (sndIgnoreBody_unlessRst h)
  | eotAcked f => exact row_unlessRst (eotAckedBody_unlessRst h f.seq)
  | eotOtherAck f | eotOtherData f | eotOtherEot f => exact row_unlessRst (eotOtherBody_unlessRst h f.seq)
  | rcvData f => exact row_unlessRst (rcvDataBody_unlessRst h f)
  | rcvEot f => exact row_unlessRst (rcvEotBody_unlessRst h f)
  | rcvOoo kd f => exact row_unlessRst (rcvOooBody_unlessRst h)
  | rcvIgnoreAck f | rcvIgnoreEotAck f => exact row_unlessRst (rcvIgnoreBody_unlessRst h)
  | encode e f => exact execEncode_unlessRst h f
  | decode e b => exact execDecode_unlessRst h b
  | sndStart => exact execSndStart_unlessRst h
  | sndCycle => exact row_unlessRst (sndCycleBody_unlessRst h)
  | fill => exact row_unlessRst (fillBody_unlessRst h)
  | txNew => exact row_unlessRst (txNewBody_unlessRst h)
  | resend => exact row_unlessRst (resendBody_unlessRst h)
  | txOld j => exact execTxOld_unlessRst h j
  | sndEvent a => exact row_unlessRst (sndEventBody_unlessRst h a)
  | timeout => exact row_unlessRst (timeoutBody_unlessRst h)
  | resync n => exact row_unlessRst (resyncBody_unlessRst h n)
  | eotSend => exact row_unlessRst (eotSendBody_unlessRst h)
  | eotEvent a => exact row_unlessRst (eotEventBody_unlessRst h a)
  | eotTimeout => exact row_unlessRst (eotTimeoutBody_unlessRst h)
  | rcvStart => exact execRcvStart_unlessRst h
  | rcvEvent a => exact row_unlessRst (rcvEventBody_unlessRst h a)
  | rcvTimeout => exact row_unlessRst (rcvTimeoutBody_unlessRst h)
  | reset e => exact execReset_unlessRst _
end RowsUnless

/-! ### The external calls with an rst due -/

section CallsDue
variable {s : State} {n : Nat}

theorem srcNext_due (h : rstDue .sender 0 s) : srcNext s = .stop (resetEngine .sender s) := external_due _ h

/-- `SrcNext()` before the call at which the rst comes; a chunk of 1 to 30 bytes (R67(a)). -/
theorem srcNext_counted (h : rstDue .sender (n + 1) s) {d : List Byte} (hd : s.src.chunks[s.src.cursor]? = some d)
    (h1 : 1 ≤ d.length) (h2 : d.length ≤ 30) :
    srcNext s = .ok (.chunk d (nextIsLast s))
      (counted .sender (some n) (s.setSrc { s.src with cursor := s.src.cursor + 1 })) := by
  rw [srcNext, external_counted _ h]
  simp only [counted_src, hd, srcCursorAfter_good _ h1 h2]
  rfl

theorem srcSeek_due (i : Nat) (h : rstDue .sender 0 s) : srcSeek i s = .stop (resetEngine .sender s) := external_due _ h

theorem srcSeek_counted (i : Nat) (h : rstDue .sender (n + 1) s) :
    srcSeek i s = .ok () (counted .sender (some n) (s.setSrc { s.src with cursor := i })) :=
  external_counted _ h

theorem record_due {e : Role} (ev : Event) (h : rstDue e 0 s) : record e ev s = .stop (resetEngine e s) := external_due _ h

theorem record_receiver_counted (ev : Event) (h : rstDue .receiver (n + 1) s) :
    record .receiver ev s = .ok () (counted .receiver (some n) (rcvLogged ev s)) :=
  external_counted _ h

theorem sinkAppend_due (d : List Byte) (h : rstDue .receiver 0 s) :
    sinkAppend d s = .stop (resetEngine .receiver s) := external_due _ h

theorem sinkAppend_counted (d : List Byte) (h : rstDue .receiver (n + 1) s) :
    sinkAppend d s = .ok () (counted .receiver (some n) (s.setSink (s.sink ++ d))) :=
  external_counted _ h
end CallsDue

/-- Whatever the counter, RESET spends it (R280). -/
theorem resetEngine_counted (e : Role) (r : Option Nat) (s : State) : resetEngine e (counted e r s) = resetEngine e s := by
  cases e <;> rfl

theorem rstDue_counted (e : Role) (k : Nat) (s : State) : rstDue e k (counted e (some k) s) := by
  simp [rstDue]

/-- The send at which the rst comes, after calls that have counted it down (R280; log 15). -/
theorem sendFrame_counted_due {e : Role} {f : Frame} (s : State) (hp : f.payload.length = 30) :
    sendFrame e f (counted e (some 0) s) = .stop (resetEngine e (encoded e f s)) := by
  rw [sendFrame_due e f _ hp (rstDue_counted e 0 s), encoded_counted, resetEngine_counted]

/-! ### RCV's operations, abandoned -/

section ReceivingDue
variable {s : State} (f : Body)

theorem rcvDataBody_atAppend (h : rstDue .receiver 0 s) : rcvDataBody f s = .stop (resetEngine .receiver s) := by
  rw [rcvDataBody, sinkAppend_due _ h, bind_stop]

theorem rcvDataBody_atRecord (h : rstDue .receiver 1 s) :
    rcvDataBody f s = .stop ((resetEngine .receiver s).setSink (s.sink ++ f.payload.take f.len.toNat)) := by
  rw [rcvDataBody, sinkAppend_counted _ h, bind_ok, record_due _ (rstDue_counted _ 0 _), bind_stop]
  rfl

theorem rcvDataBody_atReply (h : rstDue .receiver 2 s) :
    rcvDataBody f s =
      .stop (resetEngine .receiver (encoded .receiver (frameAck s.rcv.expectedSeq) (dataTaken f s))) := by
  rw [rcvDataBody, sinkAppend_counted _ h, bind_ok, record_receiver_counted _ (rstDue_counted _ 1 _), bind_ok]
  dsimp only
  rw [sendFrame_counted_due _ (frameAck_payload_length _), bind_stop]
  rfl

theorem rcvEotBody_atRecord (h : rstDue .receiver 0 s) : rcvEotBody f s = .stop (resetEngine .receiver s) := by
  rw [rcvEotBody, record_due _ h, bind_stop]

theorem rcvEotBody_atReply (h : rstDue .receiver 1 s) :
    rcvEotBody f s =
      .stop (resetEngine .receiver (encoded .receiver (frameEotAck f.seq) (rcvLogged (.eotRx f.seq) s))) := by
  rw [rcvEotBody, record_receiver_counted _ h, bind_ok, sendFrame_counted_due _ (frameEotAck_payload_length _), bind_stop]
end ReceivingDue

/-! ### SND's operations, abandoned -/

section SendingDue
variable {s : State} {d : List Byte}

theorem txNewBody_atNext (h : rstDue .sender 0 s) : txNewBody s = .stop (resetEngine .sender s) := by
  rw [txNewBody, srcNext_due h, bind_stop]

theorem txNewBody_atSend (h : rstDue .sender 1 s) (hd : s.src.chunks[s.src.cursor]? = some d) (h1 : 1 ≤ d.length)
    (h2 : d.length ≤ 30) (hmax : s.snd.sentCount ≠ Config.maxCount) :
    txNewBody s = .stop ((resetEngine .sender (encoded .sender (chunkFrame s.snd.nextSeq d) s)).setSrc
      { s.src with cursor := s.src.cursor + 1 }) := by
  have hsend : txNewBody s =
      (sendFrame .sender (chunkFrame s.snd.nextSeq d)
        (counted .sender (some 0) (s.setSrc { s.src with cursor := s.src.cursor + 1 }))).bind
          fun _ t => .ok () (t.setSnd (pushWindow t.snd (nextIsLast s))) := by
    rw [txNewBody, srcNext_counted h hd h1 h2, bind_ok]
    exact (goes_on_of_good _ h1 h2).trans (if_neg hmax)
  rw [hsend, sendFrame_counted_due _ (chunkFrame_payload_length _ d h2), bind_stop]
  rfl

variable {en : Entry}

theorem txOldBody_atSeek (h : rstDue .sender 0 s) : txOldBody en s = .stop (resetEngine .sender s) := by
  rw [txOldBody, srcSeek_due _ h, bind_stop]

theorem txOldBody_atNext (h : rstDue .sender 1 s) :
    txOldBody en s = .stop ((resetEngine .sender s).setSrc { s.src with cursor := en.off.toNat }) := by
  rw [txOldBody, srcSeek_counted _ h, bind_ok, srcNext_due (rstDue_counted _ 0 _), bind_stop]
  rfl

theorem txOldBody_atSend (h : rstDue .sender 2 s) (hd : s.src.chunks[en.off.toNat]? = some d) (h1 : 1 ≤ d.length)
    (h2 : d.length ≤ 30) :
    txOldBody en s = .stop ((resetEngine .sender (encoded .sender (chunkFrame en.seq d) s)).setSrc
      { s.src with cursor := en.off.toNat + 1 }) := by
  have hsend : txOldBody en s = sendFrame .sender (chunkFrame en.seq d)
      (counted .sender (some 0) (s.setSrc { s.src with cursor := en.off.toNat + 1 })) := by
    have hnext := srcNext_counted (rstDue_counted .sender 1 (s.setSrc { s.src with cursor := en.off.toNat })) hd h1 h2
    rw [txOldBody, srcSeek_counted _ h, bind_ok, hnext, bind_ok]
    exact goes_on_of_good _ h1 h2
  rw [hsend, sendFrame_counted_due _ (chunkFrame_payload_length _ d h2)]
  rfl

variable (h : rstDue .sender 0 s)
include h

/-- RESEND's first call is the seek to its first entry, or the last seek where the window is empty (R145). -/
theorem resendBody_due : resendBody s = .stop (resetEngine .sender s) := by
  rw [resendBody]
  cases window s.snd with
  | nil => rw [txOldAll, bind_ok, srcSeek_due _ h, bind_stop]
  | cons en rest => rw [txOldAll, txOldBody_atSeek h, bind_stop, bind_stop]

theorem eotSendBody_due : eotSendBody s = .stop (resetEngine .sender (encoded .sender (frameEot s.snd.base) s)) := by
  rw [eotSendBody, sendFrame_due _ _ _ (frameEot_payload_length _) h, bind_stop]

theorem ackBody_due (n : Seq) (hn : s.snd.doNothing = false) : ackBody n s = .stop (resetEngine .sender s) := by
  rw [ackBody, hn, if_neg Bool.false_ne_true, record_due _ h, bind_stop]

theorem eotAckedBody_due (n : Seq) : eotAckedBody n s = .stop (resetEngine .sender s) := by
  rw [eotAckedBody, record_due _ h, bind_stop]

/-- The registers that RESYNC has written before its rewind are reset with the others (R177, R280). -/
theorem resyncBody_due (n : Seq) {a : Count} (ha : resyncAdj s.adj s.snd.ackedCount = some a) :
    resyncBody n s = .stop (resetEngine .sender s) := by
  have h' : rstDue .sender 0 (s.setSnd (resyncRegs n a s.snd)) := h
  simp only [resyncBody, resyncWith, ha, srcSeek_due _ h', bind_stop]
  rfl
end SendingDue

/-! ### A pending receive, abandoned -/

/-- An answer is at hand for an engine that waits for one, but the rst comes first: RESET on the state as it was, the datagram
still in the bag (R280). -/
theorem fetchAnswer_due {e : Role} {c : RecvChoice} {s : State} {a : Answer} {left : List Datagram} {i : Instr}
    (ha : answersWith c (s.side e).inbox a left) (hi : eventRow e a s = some i) (h : rstDue e 0 s) :
    fetchAnswer e c s = .perform (.reset e) s := by
  have hr : (s.side e).rstAt = some 0 := h
  simp only [fetchAnswer, channelAnswer_of_answersWith ha, hi, hr]

/-- An engine that waits for an answer has an event for it (R147, R201, R221). -/
theorem exists_eventRow {e : Role} {s : State} (a : Answer)
    (h : (e = .sender ∧ (s.snd.phase = .wait ∨ s.snd.phase = .eotWait)) ∨ (e = .receiver ∧ s.rcv.phase = .wait)) :
    ∃ i, eventRow e a s = some i := by
  rcases h with ⟨rfl, hw | he⟩ | ⟨rfl, hw⟩
  · exact ⟨_, eventRow_sender_wait a hw⟩
  · exact ⟨_, eventRow_sender_eotWait a he⟩
  · exact ⟨_, eventRow_receiver_wait a hw⟩

theorem step_of_answer_due {s : State} {rest : List Move} {e : Role} {c : RecvChoice} (hs : s.script = .answer e c :: rest)
    (h : rstDue e 0 s) (hc : c = .timeout ∨ c = .error ∨ ∃ i b, c = .deliver i ∧ (s.side e).inbox[i]? = some b)
    (hp : (e = .sender ∧ (s.snd.phase = .wait ∨ s.snd.phase = .eotWait)) ∨ (e = .receiver ∧ s.rcv.phase = .wait)) :
    step s = .next (resetEngine e (s.setScript rest)) := by
  have hside : (s.setScript rest).side e = s.side e := setScript_side s rest e
  have hanswer : ∃ a left, answersWith c ((s.setScript rest).side e).inbox a left := by
    rw [hside]
    rcases hc with rfl | rfl | ⟨i, b, rfl, hb⟩
    · exact ⟨_, _, .inr (.inl ⟨rfl, rfl, rfl⟩)⟩
    · exact ⟨_, _, .inr (.inr ⟨rfl, rfl, rfl⟩)⟩
    · exact ⟨_, _, .inl ⟨i, b, rfl, hb, rfl, rfl⟩⟩
  obtain ⟨a, left, ha⟩ := hanswer
  obtain ⟨i, hi⟩ := exists_eventRow (s := s.setScript rest) a hp
  have h' : rstDue e 0 (s.setScript rest) := by rwa [rstDue, hside]
  exact step_of_perform_move hs (fetchAnswer_due ha hi h')

/-! ### The rows, abandoned -/

/-- A row that is performed, and whose operation the rst has abandoned. -/
theorem exec_of_stop {α : Type} {i : Instr} {s t : State} {r : Res α} (hrow : exec i s = r.outcome) (h : r = .stop t) :
    exec i s = .next t := by
  rw [hrow, h, outcome_stop]

/-- Settles O20: each row is its body in its context, and the body stops at the call where the rst is due; in general by
`exec_unlessRst`. -/
theorem rstAbandonsAnOperation : Obligations.RstAbandonsAnOperation := by
  refine ⟨fun s f k hp hn h => ?_, fun s kd f hp hn h => ?_, fun s hc => ?_, fun s j en k hc hen h => ?_,
    fun s f n h => ⟨fun hc => ?_, fun hc => ?_, fun hp hd => ?_, fun hp => ?_, fun hc ha => ?_⟩,
    fun s rest e c hs h hc hp => step_of_answer_due hs h hc hp, fun i e k s t he h ht => ?_⟩
  · have hin : (rcvWaiting s && inOrder f s) = true := (rcvInOrder_iff s f).2 ⟨hp, hn⟩
    have hdata : exec (.rcvData f) s = (rcvDataBody f s).outcome := onlyWhen_of_eq_true hin
    have heot : exec (.rcvEot f) s = (rcvEotBody f s).outcome := onlyWhen_of_eq_true hin
    refine ⟨?_, ?_, ?_⟩ <;> rintro rfl
    · exact ⟨exec_of_stop hdata (rcvDataBody_atAppend f h), exec_of_stop heot (rcvEotBody_atRecord f h)⟩
    · exact ⟨exec_of_stop hdata (rcvDataBody_atRecord f h), exec_of_stop heot (rcvEotBody_atReply f h)⟩
    · exact exec_of_stop hdata (rcvDataBody_atReply f h)
  · exact exec_of_stop (exec_rcvOoo kd hp hn) (sendFrame_due _ _ _ (frameAck_payload_length _) h)
  · have hrow : exec .txNew s = (txNewBody s).outcome := onlyWhen_of_eq_true ((txNewContext_iff s).2 hc)
    exact ⟨fun h => exec_of_stop hrow (txNewBody_atNext h), fun h d hd h1 h2 hmax =>
      exec_of_stop hrow (txNewBody_atSend h hd h1 h2 hmax)⟩
  · obtain ⟨hp, he, hs, -⟩ := hc
    have hrow := exec_txOld hp he hs hen
    refine ⟨?_, ?_, ?_⟩ <;> rintro rfl
    · exact exec_of_stop hrow (txOldBody_atSeek h)
    · exact exec_of_stop hrow (txOldBody_atNext h)
    · exact fun d hd h1 h2 => exec_of_stop hrow (txOldBody_atSend h hd h1 h2)
  · obtain ⟨hp, he⟩ := hc
    exact exec_of_stop (exec_eotSend hp he) (eotSendBody_due h)
  · obtain ⟨hp, he, hs⟩ := hc
    exact exec_of_stop (exec_resend hp he hs) (resendBody_due h)
  · exact exec_of_stop (exec_ackRx hp) (ackBody_due h _ hd)
  · have hrow : exec (.eotAcked f) s = (eotAckedBody f.seq s).outcome := onlyWhen_of_eq_true ((inEotWait_iff s).2 hp)
    exact exec_of_stop hrow (eotAckedBody_due h _)
  · obtain ⟨a, ha⟩ := ha
    exact exec_of_stop (exec_resync n hc) (resyncBody_due h n ha)
  · subst he
    exact exec_unlessRst ⟨k, le_rfl, h⟩ t ht

end Sys2Proof.Machine
